-- ==== Sys2Proof/Word.lean ====
section
/-! DEFINITION. The word types of the VTC: bytes of memory, the 32-bit command word, STATUS and pixel,
and the (character, attribute) cell. -/

namespace Sys2Proof

/-- One byte: a window byte, a glyph row, a byte of the font stream (20_memory.md R53). -/
abbrev Byte := BitVec 8

/-- A 32-bit word: the command word W (30_encoding.md R71) and STATUS (10_state.md R24). -/
abbrev Word := BitVec 32

/-- One output pixel, four 8-bit channels read as a little-endian number (30_encoding.md R83). -/
abbrev Pixel := BitVec 32

/-- One cell of the character grid: byte 0 is the character, byte 1 the attribute (30_encoding.md R78). -/
structure Cell where
  char : Byte
  attr : Byte
deriving DecidableEq, Repr

end Sys2Proof
end

