-- ==== Sys2Proof/Syntax.lean ====
section
/-! DEFINITION. The commands of the VTC: one constructor per row of spec/opcode_table.json. -/

namespace Sys2Proof

/-- The three commands (30_encoding.md R70, R71). -/
inductive Instr where
  /-- FONTLOAD: load the glyph table from the font stream the host hands over (40_font_load.md R100). -/
  | fontload
  /-- TTYPUT c: write one character cell at the cursor and advance it (41_teletype.md R122). -/
  | ttyput (c : Byte)
  /-- COMPOSE: rasterize the character grid into the frame buffer (42_compose.md R140). -/
  | compose
deriving DecidableEq, Repr

end Sys2Proof
end

