-- ==== Sys2Proof/WellFormed.lean ====
section
/-! DEFINITION. Which terms are well-formed. A command's one operand is a byte, and every byte is a legal
character code (30_encoding.md R73), so every Instr is well-formed; what can be ill-formed is the command
word, and the checks below are the classes of illegal words of 30_encoding.md R74. -/

namespace Sys2Proof

/-- One row of the opcode table of 30_encoding.md R71. -/
structure OpcodeRow where
  mnemonic : String
  pattern : Word
  mask : Word
deriving DecidableEq, Repr

/-- The opcode table of 30_encoding.md R71, row by row. -/
def opcodeTable : List OpcodeRow :=
  [ ⟨"FONTLOAD", 0x01000000, 0xFFFFFFFF⟩,
    ⟨"TTYPUT", 0x02000000, 0xFFFFFF00⟩,
    ⟨"COMPOSE", 0x03000000, 0xFFFFFFFF⟩ ]

/-- The word fits one row of the table: its bits under the mask are the row's. -/
def OpcodeRow.fits (r : OpcodeRow) (w : Word) : Bool := w &&& r.mask == r.pattern

/-- Check 1 (R74): OP, bits 31:24, is one of the three selectors. -/
def Word.opDefined (w : Word) : Bool :=
  w >>> 24 == 0x01#32 || w >>> 24 == 0x02#32 || w >>> 24 == 0x03#32

/-- Check 2 (R74): RSV, bits 23:8, is 0. -/
def Word.rsvZero (w : Word) : Bool := w &&& 0x00FFFF00#32 == 0#32

/-- Check 3 (R74): IMM8, bits 7:0, is 0 unless OP selects TTYPUT. -/
def Word.immAllowed (w : Word) : Bool := w >>> 24 == 0x02#32 || w &&& 0x000000FF#32 == 0#32

/-- A command word that selects a command (30_encoding.md R74). -/
def Word.wellFormed (w : Word) : Bool := Word.opDefined w && Word.rsvZero w && Word.immAllowed w

/-- Every command with every operand value is well-formed: the operand's type holds exactly the values the
encoding admits (30_encoding.md R73). -/
def Instr.wellFormed : Instr → Bool
  | .fontload => true
  | .ttyput _ => true
  | .compose => true

end Sys2Proof
end

