-- ==== Sys2Proof/Decode.lean ====
section
/-! DEFINITION. The decoder of the command word, total on every 32-bit word and rejecting by name
(30_encoding.md R72, R74), and after it the encoder. -/

namespace Sys2Proof

/-- OP = W[31:24] (30_encoding.md R71). -/
def opField (w : Word) : BitVec 8 := w.extractLsb' 24 8

/-- RSV = W[23:8] (30_encoding.md R71). -/
def rsvField (w : Word) : BitVec 16 := w.extractLsb' 8 16

/-- IMM8 = W[7:0] (30_encoding.md R71, R73). -/
def immField (w : Word) : Byte := w.extractLsb' 0 8

/-- Why a word selects no command (30_encoding.md R74). -/
inductive DecodeFault where
  /-- OP is not 0x01, 0x02 or 0x03: the word raises CMD_BAD_OP. -/
  | badOp
  /-- A reserved bit is 1: the word raises CMD_RESERVED_BITS. -/
  | reservedBits
deriving DecidableEq, Repr

/-- The decoding procedure of 30_encoding.md R72 below its quiescent check, in its order. The quiescent
check reads FAULT and stands in Machine/Command.lean. -/
def decode (w : Word) : Except DecodeFault Instr :=
  if opField w ≠ 0x01 ∧ opField w ≠ 0x02 ∧ opField w ≠ 0x03 then .error .badOp
  else if rsvField w ≠ 0 ∨ (opField w ≠ 0x02 ∧ immField w ≠ 0) then .error .reservedBits
  else if opField w = 0x01 then .ok .fontload
  else if opField w = 0x02 then .ok (.ttyput (immField w))
  else .ok .compose

/-- The command word of a command (30_encoding.md R71, R76). -/
def encode : Instr → Word
  | .fontload => 0x01000000#32
  | .ttyput c => 0x02#8 ++ 0#16 ++ c
  | .compose => 0x03000000#32

/-- What the decoder reads from the word whose low nbits bits are w's, the rest 0. -/
def decodeTableWord (nbits w : Nat) : Option Instr :=
  match decode (BitVec.ofNat 32 (w % 2 ^ nbits)) with
  | .ok i => some i
  | .error _ => none

end Sys2Proof
end

