-- ==== Sys2Proof/Config.lean ====
section
/-! DEFINITION. The fixed sizes of the block and the shape of its parameters (00_scope.md R7), and the one free
value.
The parameters' default values stand in Machine/Defaults.lean. -/

namespace Sys2Proof

/-! ## Sizes the spec fixes (00_scope.md R7) -/

/-- MEM_SIZE: bytes of PhysicalMemory, addresses 0x00000 to 0xFFFFF (20_memory.md R50). -/
@[simp] abbrev memSize : Nat := 1048576

/-- COLS: columns of the character grid. -/
@[simp] abbrev cols : Nat := 80

/-- ROWS: rows of the character grid. -/
@[simp] abbrev rows : Nat := 25

/-- CELLS = COLS × ROWS. -/
@[simp] abbrev cells : Nat := 2000

/-- WINDOW_BYTES = CELLS × 2. -/
@[simp] abbrev windowBytes : Nat := 4000

/-- Bytes of one row of the window: COLS × 2. -/
@[simp] abbrev rowBytes : Nat := 160

/-- GLYPH_W: pixels across a glyph. -/
@[simp] abbrev glyphW : Nat := 8

/-- GLYPH_H: pixel rows of a glyph. -/
@[simp] abbrev glyphH : Nat := 16

/-- GLYPHS_USED: character codes 0x00 to 0xFF. -/
@[simp] abbrev glyphsUsed : Nat := 256

/-- FB_W: pixels across the frame buffer. -/
@[simp] abbrev fbW : Nat := 640

/-- FB_H: pixel rows of the frame buffer. -/
@[simp] abbrev fbH : Nat := 400

/-! ## Parameters (00_scope.md R7, 10_state.md R35) -/

/-- The colour channels of one palette entry (10_state.md R31). -/
structure Rgb where
  r : Byte
  g : Byte
  b : Byte
deriving DecidableEq, Repr

/-- The four channels of a pixel (30_encoding.md R83). -/
inductive Channel where
  | r
  | g
  | b
  | a
deriving DecidableEq, Repr

/-- PIXEL_LAYOUT: which channel each byte of a pixel holds, in the frame buffer's byte order, and the
alpha of every pixel (00_scope.md R7, 30_encoding.md R83). -/
structure PixelLayout where
  byte0 : Channel
  byte1 : Channel
  byte2 : Channel
  byte3 : Channel
  alpha : Byte
deriving DecidableEq, Repr

/-- The parameters of the block. They are fixed for one machine; State carries them so that a claim about
every state is a claim about every parameter value (DESIGN CHOICE, log 3, safe). -/
structure Config where
  /-- VIDEO_BASE. Its type is the constraint VIDEO_BASE + WINDOW_BYTES ≤ MEM_SIZE of R7. -/
  videoBase : Fin 1044577
  /-- PALETTE, 16 entries (10_state.md R31). -/
  palette : Vector Rgb 16
  /-- PIXEL_LAYOUT (30_encoding.md R83). -/
  pixelLayout : PixelLayout
  /-- SCROLL_FILL: the cell a scroll puts in every place of row 24 (41_teletype.md R127, 92 D11). -/
  scrollFill : Cell
  /-- GLYPH_MSB_LEFT: bit 7 of a glyph row byte is the leftmost pixel (30_encoding.md R81, 92 D5). -/
  glyphMsbLeft : Bool
  /-- FONT_MODE_OK as plain data: the MODE bytes NOT accepted (40_font_load.md R105, log 7). -/
  fontModesRefused : List Byte
deriving DecidableEq, Repr

/-! ## The free value (40_font_load.md R105, log 7, 28) -/

/-- Which of the five font faults a font with a MODE byte that FONT_MODE_OK does not accept raises, for the n-th
such font. The spec states no code for it, so nothing constrains it: a claim holds whatever it is. -/
opaque freeFontFault : Nat → Fin 5

end Sys2Proof
end

