-- ==== Sys2Proof/Machine/Defaults.lean ====
section
/-! DEFINITION. The default values of the block's parameters (00_scope.md R7). They are defaults only: every
claim about all states is a claim about every parameter value (log 3, 4). -/

namespace Sys2Proof.Machine

/-- The default PALETTE, the 16 colours of the table of 10_state.md R31. -/
def vgaPalette : Vector Rgb 16 :=
  #v[⟨0x00, 0x00, 0x00⟩, ⟨0x00, 0x00, 0xAA⟩, ⟨0x00, 0xAA, 0x00⟩, ⟨0x00, 0xAA, 0xAA⟩,
     ⟨0xAA, 0x00, 0x00⟩, ⟨0xAA, 0x00, 0xAA⟩, ⟨0xAA, 0x55, 0x00⟩, ⟨0xAA, 0xAA, 0xAA⟩,
     ⟨0x55, 0x55, 0x55⟩, ⟨0x55, 0x55, 0xFF⟩, ⟨0x55, 0xFF, 0x55⟩, ⟨0x55, 0xFF, 0xFF⟩,
     ⟨0xFF, 0x55, 0x55⟩, ⟨0xFF, 0x55, 0xFF⟩, ⟨0xFF, 0xFF, 0x55⟩, ⟨0xFF, 0xFF, 0xFF⟩]

/-- The default PIXEL_LAYOUT: bytes R, G, B, A with A = 0xFF (30_encoding.md R83). -/
def rgbaLayout : PixelLayout := ⟨.r, .g, .b, .a, 0xFF⟩

/-- The default of every parameter: VIDEO_BASE 0xB8000 (00_scope.md R8), the scroll fill (0x20, 0x07)
(41_teletype.md R127), bit 7 leftmost (30_encoding.md R81), every MODE byte accepted (40_font_load.md R105). -/
def defaultConfig : Config where
  videoBase := 0xB8000
  palette := vgaPalette
  pixelLayout := rgbaLayout
  scrollFill := ⟨0x20, 0x07⟩
  glyphMsbLeft := true
  fontModesRefused := []

end Sys2Proof.Machine
end

