-- ==== Sys2Proof/Machine/State.lean ====
section
/-! DEFINITION. The state of the machine as plain data, the reasons a step can stop, and the state after
reset (10_state.md, 70_reset_and_hazards.md R201). -/

namespace Sys2Proof.Machine

/-- PhysicalMemory as (address, byte) pairs in one canonical form (Memory.wf in Machine/Ops.lean); an
unlisted address reads as Memory.blank. -/
abbrev Memory := List Host.Cell

/-- GLYPH: 256 glyphs of 16 row bytes each, indexed by character code and row (10_state.md R29). -/
abbrev GlyphTable := Vector (Vector Byte 16) 256

/-- FB: 400 rows of 640 pixels, row 0 at the top (10_state.md R32, 30_encoding.md R84). -/
abbrev FrameBuffer := Vector (Vector Pixel 640) 400

/-- The fault codes of 60_exceptions.md R172. Codes 0xA to 0xF are never produced and have no name here. -/
inductive FaultCode where
  | none
  | fontMissing
  | fontShortHeader
  | fontBadMagic
  | fontBadHeight
  | fontShortGlyphs
  | cmdBadOp
  | cmdReservedBits
  | cmdFontReload
  | cmdNotReady
deriving DecidableEq, Repr

/-- One command handed to the block: the word W and the font stream S that goes with it, which only FONTLOAD
reads (30_encoding.md R71, 60_exceptions.md R182). -/
structure Command where
  word : Word
  stream : List Byte
deriving DecidableEq, Repr

/-- What one instruction of the host CPU's executor does, as far as the block can see it (42_compose.md R154;
the executor itself is out of scope, 00_scope.md R5; log 16). -/
inductive GuestAction where
  /-- A software interrupt with vector v (41_teletype.md R120). -/
  | softInt (v : Byte)
  /-- The instruction leaves v in the accumulator (10_state.md R20). -/
  | moveAcc (v : BitVec 32)
  /-- The instruction leaves v in AL and the rest of the accumulator as it was (10_state.md R20). -/
  | moveAl (v : Byte)
  /-- The instruction leaves v in AH and the rest of the accumulator as it was (10_state.md R20). -/
  | moveAh (v : Byte)
  /-- Halt: later frames execute no instruction (42_compose.md R155). -/
  | hlt
  /-- A DecodeError of the executor (42_compose.md R157). -/
  | decodeError
  /-- Any other instruction: a no-op, a jump, a move into another register (20_memory.md R62). -/
  | other
deriving DecidableEq, Repr

/-- What the outside does during startup; the order of the list is the order of the events
(70_reset_and_hazards.md R203, R204). -/
inductive StartupEvent where
  /-- The font resource S is handed over with FONTLOAD. -/
  | font (s : List Byte)
  /-- Boot selection runs over the fixed devices, in order; a qualifying one's first 512 bytes are copied to
  the boot location, which the spec does not give (90_conflicts.md C5; log 18). -/
  | boot (devices : List (List Byte)) (location : Nat)
deriving DecidableEq, Repr

/-- Why a run ended. -/
inductive EndReason where
  /-- A shutdown event, honoured at the poll of a frame (42_compose.md R156). -/
  | shutdown
  /-- The executor met an unsupported opcode (42_compose.md R157). -/
  | decodeError
  /-- A fault was set before frame 1 (40_font_load.md R112, 70_reset_and_hazards.md R205). -/
  | startupFault
  /-- No fixed device qualified for boot (70_reset_and_hazards.md R203 (b)). -/
  | noBootDevice
deriving DecidableEq, Repr

/-- Where the frame sequencer stands (42_compose.md R154). -/
inductive Phase where
  /-- Before frame 1 (70_reset_and_hazards.md R203). -/
  | startup
  /-- Step 1 of a frame: poll shutdown. -/
  | poll
  /-- Step 2: one host CPU instruction. -/
  | execute
  /-- Step 3: COMPOSE. -/
  | compose
  /-- Step 4: present. -/
  | present
  /-- The run is over. -/
  | ended (why : EndReason)
deriving DecidableEq, Repr

/-- The whole machine: the block, the memory and registers it reads, its parameters, its inputs and the
frame sequencer that drives it. -/
structure State where
  /-- The parameters; no step writes them (10_state.md R35, log 3). -/
  cfg : Config
  /-- STATUS.FONT_OK (10_state.md R25). -/
  fontOk : Bool
  /-- STATUS.FAULT (10_state.md R26). -/
  fault : FaultCode
  /-- STATUS.FB_VALID (10_state.md R28). -/
  fbValid : Bool
  /-- STATUS.CUR_COL (10_state.md R27). -/
  curCol : Byte
  /-- STATUS.CUR_ROW (10_state.md R27). -/
  curRow : Byte
  /-- GLYPH, or no value before a FONTLOAD completes (10_state.md R29). -/
  glyphs : Option GlyphTable
  /-- FB (10_state.md R32). -/
  fb : FrameBuffer
  /-- PhysicalMemory (10_state.md R33), the video window in it (R34). -/
  mem : Memory
  /-- The host CPU's accumulator, of which the block reads AL and AH (10_state.md R20). -/
  acc : BitVec 32
  /-- The executor's halted signal (10_state.md R35, 60_exceptions.md R185). -/
  halted : Bool
  /-- The command port: commands issued and not yet executed, first one first (10_state.md R22; log 1). -/
  port : List Command
  /-- The font stream handed over with the command being executed (10_state.md R35; log 2). -/
  stream : List Byte
  /-- The frame sequencer's place (42_compose.md R154; log 14). -/
  phase : Phase
  /-- Boot selection has finished (70_reset_and_hazards.md R203 (b)). -/
  bootDone : Bool
  /-- Startup events still to come, in order (70_reset_and_hazards.md R204; log 17). -/
  startup : List StartupEvent
  /-- The answers of the coming shutdown polls (42_compose.md R156; log 15). -/
  polls : List Bool
  /-- What the executor's coming instructions do (42_compose.md R154; log 16). -/
  guest : List GuestAction
  /-- The MODEL's own field, not the spec's: the index of the next free value (freeFontFault of Config.lean;
  log 28). -/
  freeIndex : Nat
  /-- The last frame handed to the presentation surface (42_compose.md R153; log 20). -/
  presented : Option FrameBuffer
deriving DecidableEq, Repr

/-- Why a step stops the machine. None of these is a fault code of the block: those are next states with
STATUS.FAULT set (60_exceptions.md R171; log 8). -/
inductive Fault where
  /-- TTYPUT with CUR_COL or CUR_ROW outside 0 to 79, 0 to 24. The spec's cursor is never there (10_state.md
  R27), so it gives no effect. Raised by TTYPUT only; no run reaches it. Safe (log 10). -/
  | cursorOutOfRange
  /-- COMPOSE with FONT_OK = 1 and no value in the glyph table. The spec has no such state (10_state.md R25,
  R29). Raised by COMPOSE only; no run reaches it. Safe (log 11). -/
  | glyphTableUnset
  /-- The boot copy would leave PhysicalMemory; "every computed address must be range-checked" (20_memory.md
  R50). Raised by the sequencer's boot selection only. Safe (log 18). -/
  | addressOutOfRange
  /-- The run is over and no command waits at the port (42_compose.md R156, R157). Raised by step only. Safe
  (log 21). -/
  | runEnded
deriving DecidableEq, Repr

/-- Why a step has no meaning. -/
inductive Refusal where
  /-- An instruction without a meaning yet, by its mnemonic. Raised by no arm of exec. Safe. -/
  | notModelled (mnemonic : String)
  /-- Step 2 of a frame with nothing said about what the executor's instruction does; the executor is out of
  scope (00_scope.md R5). Raised by the sequencer only. Safe (log 16). -/
  | executorOutOfScope
deriving DecidableEq, Repr

/-- The frame buffer at reset: 0x00000000 in every pixel (10_state.md R32). -/
def FrameBuffer.reset : FrameBuffer := Vector.replicate 400 (Vector.replicate 640 0)

/-- The machine right after reset with the parameters cfg (70_reset_and_hazards.md R200, R201). -/
def State.resetWith (cfg : Config) : State where
  cfg := cfg
  fontOk := false
  fault := .none
  fbValid := false
  curCol := 0
  curRow := 0
  glyphs := none
  fb := FrameBuffer.reset
  mem := []
  acc := 0          -- DESIGN CHOICE: the spec gives the accumulator no reset value (log 19)
  halted := false
  port := []        -- DESIGN CHOICE: inputs are empty until the outside fills them (log 1, 2, 15 to 18)
  stream := []
  phase := .startup
  bootDone := false
  startup := []
  polls := []
  guest := []
  freeIndex := 0    -- DESIGN CHOICE: the model's own field; no claim rests on the value (log 28)
  presented := none

/-- The machine right after reset with the default parameters (70_reset_and_hazards.md R201). -/
def State.reset : State := State.resetWith defaultConfig

end Sys2Proof.Machine
end

