-- ==== Sys2Proof/Machine/Flags.lean ====
section
/-! DEFINITION. The STATUS register (10_state.md R24) and the numbers of the fault codes
(60_exceptions.md R172). The block has no flags or condition codes (10_state.md R23). -/

namespace Sys2Proof.Machine

/-- The 4-bit code of a fault (60_exceptions.md R172). -/
def FaultCode.code : FaultCode → BitVec 4
  | .none => 0x0
  | .fontMissing => 0x1
  | .fontShortHeader => 0x2
  | .fontBadMagic => 0x3
  | .fontBadHeight => 0x4
  | .fontShortGlyphs => 0x5
  | .cmdBadOp => 0x6
  | .cmdReservedBits => 0x7
  | .cmdFontReload => 0x8
  | .cmdNotReady => 0x9

/-- The fault a word raises that selects no command (30_encoding.md R72). -/
def decodeFaultCode : DecodeFault → FaultCode
  | .badOp => .cmdBadOp
  | .reservedBits => .cmdReservedBits

/-- STATUS.FAULTED, which equals (FAULT ≠ 0) (10_state.md R24, R26). -/
def State.faulted (s : State) : Bool := s.fault ≠ .none

/-- The whole STATUS register as the host reads it (10_state.md R24): bits 31:24 reserved, 23:16 CUR_ROW,
15:8 CUR_COL, 7:4 FAULT, 3 reserved, 2 FB_VALID, 1 FAULTED, 0 FONT_OK. -/
def State.status (s : State) : Word :=
  0#8 ++ s.curRow ++ s.curCol ++ s.fault.code ++ 0#1 ++ BitVec.ofBool s.fbValid ++
    BitVec.ofBool s.faulted ++ BitVec.ofBool s.fontOk

end Sys2Proof.Machine
end

