-- ==== Sys2Proof/Machine/Ops.lean ====
section
/-! DEFINITION. The named operations over memory and the block's state, and raising a fault. -/

namespace Sys2Proof.Machine

/-! ## PhysicalMemory (20_memory.md R50, R53, R57) -/

/-- What an address that is not listed reads as: the reset contents, 0x00 (10_state.md R33). -/
def Memory.blank : Byte := 0x00

/-- MemRead(a, 1) (00_scope.md R10). -/
def Memory.read : Memory → Nat → Byte
  | [], _ => Memory.blank
  | (b, v) :: m, a => if b = a then v else Memory.read m a

/-- Put the pair (a, v) in its place of the rising order, in place of an older pair of a. -/
def Memory.insert : Memory → Nat → Byte → Memory
  | [], a, v => [(a, v)]
  | (b, w) :: m, a, v =>
    if a < b then (a, v) :: (b, w) :: m
    else if a = b then (a, v) :: m
    else (b, w) :: Memory.insert m a v

/-- Take every pair of a out. -/
def Memory.erase (m : Memory) (a : Nat) : Memory := m.filter fun c => c.1 ≠ a

/-- MemWrite(a, 1, v) (00_scope.md R10): a byte equal to what an unlisted address reads as is not listed. -/
def Memory.write (m : Memory) (a : Nat) (v : Byte) : Memory :=
  if v = Memory.blank then m.erase a else m.insert a v

/-- The bytes vs written from address a up, one at a time. -/
def Memory.writeBytes : Memory → Nat → List Byte → Memory
  | m, _, [] => m
  | m, a, v :: vs => Memory.writeBytes (m.write a v) (a + 1) vs

/-- The canonical form: addresses strictly rising, all inside PhysicalMemory, no byte equal to
Memory.blank. -/
abbrev Memory.wf (m : Memory) : Prop :=
  m.Pairwise (fun x y => x.1 < y.1) ∧ ∀ c ∈ m, c.1 < memSize ∧ c.2 ≠ Memory.blank

/-- One byte of PhysicalMemory (00_scope.md R10). -/
def State.readByte (s : State) (a : Nat) : Byte := s.mem.read a

/-! ## Named updates of the state -/

/-- The state with another memory. -/
def State.setMem (s : State) (m : Memory) : State := { s with mem := m }

/-- The state with the cursor at (col, row) (10_state.md R27). -/
def State.setCursor (s : State) (col row : Nat) : State :=
  { s with curCol := BitVec.ofNat 8 col, curRow := BitVec.ofNat 8 row }

/-- The state after a FONTLOAD that succeeds: the glyph table and FONT_OK (40_font_load.md R107, R108). -/
def State.setGlyphs (s : State) (g : GlyphTable) : State := { s with glyphs := some g, fontOk := true }

/-- The state after a COMPOSE that succeeds: the frame buffer and FB_VALID (42_compose.md R148). -/
def State.setFrame (s : State) (f : FrameBuffer) : State := { s with fb := f, fbValid := true }

/-- The state with another accumulator (10_state.md R20). -/
def State.setAcc (s : State) (v : BitVec 32) : State := { s with acc := v }

/-- The state with the frame sequencer at another place (42_compose.md R154). -/
def State.setPhase (s : State) (p : Phase) : State := { s with phase := p }

/-- The state with the font stream handed over (10_state.md R35). -/
def State.setStream (s : State) (l : List Byte) : State := { s with stream := l }

/-- The state with other commands waiting at the port. -/
def State.setPort (s : State) (l : List Command) : State := { s with port := l }

/-! ## Faults (60_exceptions.md R170 to R178)

A fault is the block's only exceptional outcome. There is no trap entry, no saved state and no handler
(R177), no return (R178) and no nesting: raising a fault writes FAULT (and with it FAULTED) and nothing
else, and only reset clears it. -/

/-- `raise Fault(k)`: FAULT is set to k, FAULTED to 1, nothing else changes (60_exceptions.md R171). -/
def State.raiseFault (s : State) (k : FaultCode) : State := { s with fault := k }

/-- The five faults of a "missing/corrupt/unsupported font" (40_font_load.md R112). -/
def fontFaults : Vector FaultCode 5 :=
  #v[.fontMissing, .fontShortHeader, .fontBadMagic, .fontBadHeight, .fontShortGlyphs]

/-- The fault of an unsupported font: one of the five, which one is the free value with index n (log 7, 28). -/
def unsupportedFontFault (n : Nat) : FaultCode := fontFaults[freeFontFault n]

/-- Raise the fault of an unsupported font, with the next free value (40_font_load.md R105, R112; 60_exceptions.md
R171): nothing of the block but FAULT changes. -/
def State.raiseUnsupportedFont (s : State) : State :=
  { s.raiseFault (unsupportedFontFault s.freeIndex) with freeIndex := s.freeIndex + 1 }

/-- Run f unless the block is quiescent: after a fault every command is ignored and has no effect
(30_encoding.md R72, 60_exceptions.md R173). -/
def unlessQuiescent (s : State) (f : State → Host.Outcome State Fault Refusal) :
    Host.Outcome State Fault Refusal :=
  if s.faulted then .next s else f s

end Sys2Proof.Machine
end

