-- ==== Sys2Proof/Machine/Operands.lean ====
section
/-! DEFINITION. The operands of the commands: accumulator views, cells and their addresses, attribute
fields, glyph rows, palette entries, pixels. -/

namespace Sys2Proof.Machine

/-! ## The accumulator (10_state.md R20) -/

/-- AL, bits 7:0 of the accumulator. -/
def State.al (s : State) : Byte := s.acc.extractLsb' 0 8

/-- AH, bits 15:8 of the accumulator. -/
def State.ah (s : State) : Byte := s.acc.extractLsb' 8 8

/-- The accumulator with v in AL. -/
def withAl (acc : BitVec 32) (v : Byte) : BitVec 32 := acc.extractLsb' 8 24 ++ v

/-- The accumulator with v in AH. -/
def withAh (acc : BitVec 32) (v : Byte) : BitVec 32 := acc.extractLsb' 16 16 ++ v ++ acc.extractLsb' 0 8

/-! ## Cells (30_encoding.md R78 to R80, 20_memory.md R51, R63) -/

/-- The index of the cell at (col, row): row-major, column fastest (30_encoding.md R80). -/
def cellIndex (col row : Nat) : Nat := row * 80 + col

/-- The address of cell i's character byte; its attribute byte is at the next address (20_memory.md R51). -/
def cellAddress (cfg : Config) (i : Nat) : Nat := cfg.videoBase.val + 2 * i

/-- FG, the foreground palette index, bits 3:0 of the attribute (30_encoding.md R79). -/
def fgIndex (attr : Byte) : BitVec 4 := attr.extractLsb' 0 4

/-- BG, the background palette index, bits 7:4 of the attribute (30_encoding.md R79). -/
def bgIndex (attr : Byte) : BitVec 4 := attr.extractLsb' 4 4

/-- The cell fetch of COMPOSE (42_compose.md R142). -/
def State.fetchCell (s : State) (i : Nat) : Cell :=
  ⟨s.readByte (cellAddress s.cfg i), s.readByte (cellAddress s.cfg i + 1)⟩

/-! ## The cursor (10_state.md R27) -/

/-- The cursor is a position of the grid. -/
def State.cursorLegal (s : State) : Bool := s.curCol.toNat < 80 && s.curRow.toNat < 25

/-- The index of the cell at the cursor (41_teletype.md R123). -/
def State.cursorIndex (s : State) : Nat := cellIndex s.curCol.toNat s.curRow.toNat

/-- The address TTYPUT stores its character to; the attribute goes to the next address (41_teletype.md R123). -/
def State.cursorAddress (s : State) : Nat := cellAddress s.cfg s.cursorIndex

/-! ## Pixels and the palette (30_encoding.md R83, 10_state.md R30, R31) -/

/-- The value of one channel of a colour under a layout; alpha is the layout's. -/
def channelValue (l : PixelLayout) (c : Rgb) : Channel → Byte
  | .r => c.r
  | .g => c.g
  | .b => c.b
  | .a => l.alpha

/-- A colour as a 32-bit pixel, byte 0 the least significant (30_encoding.md R83). -/
def packPixel (l : PixelLayout) (c : Rgb) : Pixel :=
  channelValue l c l.byte3 ++ channelValue l c l.byte2 ++ channelValue l c l.byte1 ++ channelValue l c l.byte0

/-- PAL[i] (10_state.md R30). -/
def paletteEntry (cfg : Config) (i : BitVec 4) : Pixel := packPixel cfg.pixelLayout cfg.palette[i.toNat]

/-! ## Vectors given by a function of the place -/

/-- The vector whose place i holds f i. -/
def tabulate {α : Type} {n : Nat} (f : Fin n → α) : Vector α n := ⟨(List.ofFn f).toArray, by simp⟩

/-! ## Glyphs (30_encoding.md R81, 42_compose.md R144) -/

/-- The bit of a glyph row byte that is pixel gx: bit 7 − gx where bit 7 is leftmost (30_encoding.md R81). -/
def laneBit (msbLeft : Bool) (b : Byte) (gx : Nat) : Bool :=
  if msbLeft then b.getLsbD (7 - gx) else b.getLsbD gx

/-- Glyph-row expansion: the 8 pixel lanes of row byte b in the colours F and B (42_compose.md R144). -/
def expand (msbLeft : Bool) (b : Byte) (F B : Pixel) : Vector Pixel 8 :=
  tabulate fun gx => if laneBit msbLeft b gx then F else B

/-- Row r of glyph c (00_scope.md R10). -/
def glyphRow (g : GlyphTable) (c : Byte) (r : Fin 16) : Byte := (g[c.toNat])[r]

/-! ## The frame buffer (30_encoding.md R84) -/

/-- Pixel p of the frame buffer, p = y × 640 + x (30_encoding.md R84). -/
def fbPixel (f : FrameBuffer) (p : Fin 256000) : Pixel :=
  (f[p.val / 640]'(by have := p.isLt; omega))[p.val % 640]'(by have := p.isLt; omega)

/-- Byte o of the frame buffer: pixel p holds the bytes 4p to 4p + 3 (30_encoding.md R84). -/
def fbByte (f : FrameBuffer) (o : Fin 1024000) : Byte :=
  (fbPixel f ⟨o.val / 4, by have := o.isLt; omega⟩).extractLsb' (8 * (o.val % 4)) 8

end Sys2Proof.Machine
end

