-- ==== Sys2Proof/Machine/Compose.lean ====
section
/-! DEFINITION. COMPOSE, frame rasterization (42_compose.md). -/

namespace Sys2Proof.Machine

/-- The window as COMPOSE reads it: one snapshot of the 2000 cells (42_compose.md R142, R150). -/
def State.windowCells (s : State) : Vector Cell 2000 := tabulate fun i => s.fetchCell i

/-- The pixel at (x, y): the lane gx = x mod 8 of row gy = y mod 16 of the glyph of cell (x / 8, y / 16), in
the cell's two colours (42_compose.md R147, 30_encoding.md R85). -/
def pixelOf (cfg : Config) (window : Vector Cell 2000) (g : GlyphTable) (x : Fin 640) (y : Fin 400) : Pixel :=
  let cell := window[cellIndex (x.val / 8) (y.val / 16)]'(by
    have := x.isLt; have := y.isLt; unfold cellIndex; omega)
  let b := glyphRow g cell.char ⟨y.val % 16, by omega⟩
  (expand cfg.glyphMsbLeft b (paletteEntry cfg (fgIndex cell.attr)) (paletteEntry cfg (bgIndex cell.attr)))[x.val % 8]

/-- The compositor: a pure function of the window, the glyph table and the palette (42_compose.md R149). It
reads no cursor (R151). -/
def rasterize (cfg : Config) (window : Vector Cell 2000) (g : GlyphTable) : FrameBuffer :=
  tabulate fun y => tabulate fun x => pixelOf cfg window g x y

/-- COMPOSE below the quiescent check (42_compose.md R147). -/
def composeFrame (s : State) : Host.Outcome State Fault Refusal :=
  if s.fontOk then
    match s.glyphs with
    | some g => .next (s.setFrame (rasterize s.cfg s.windowCells g))
    | none => .fault .glyphTableUnset
  else .next (s.raiseFault .cmdNotReady)

/-- COMPOSE (42_compose.md R140). -/
def execCompose (s : State) : Host.Outcome State Fault Refusal := unlessQuiescent s composeFrame

end Sys2Proof.Machine
end

