-- ==== Sys2Proof/Machine/FontLoad.lean ====
section
/-! DEFINITION. FONTLOAD (40_font_load.md). -/

namespace Sys2Proof.Machine

/-- The glyph table in the 4096 bytes that start the stream's glyph part: GLYPH[c][r] is byte 16c + r of it,
offset 4 + 16c + r of S (40_font_load.md R107). -/
def glyphsOf (l : List Byte) (h : 4096 ≤ l.length) : GlyphTable :=
  tabulate fun c => tabulate fun r => l[16 * c.val + r.val]'(by have := c.isLt; have := r.isLt; omega)

/-- What FONTLOAD finds: a fault, an unsupported font (only where the parameter refuses its MODE byte), or a
glyph table to load. -/
inductive FontVerdict where
  | raise (k : FaultCode)
  | unsupported
  | load (g : GlyphTable)
deriving DecidableEq, Repr

/-- The checks of 40_font_load.md R102 in its order; fontOk is FONT_OK, the list is S. The MODE byte is not
examined (R105) beyond the parameter FONT_MODE_OK, which by default accepts every value (log 7). -/
def fontVerdict (cfg : Config) (fontOk : Bool) (stream : List Byte) : FontVerdict :=
  if fontOk then .raise .cmdFontReload
  else match stream with
    | [] => .raise .fontMissing
    | magic0 :: magic1 :: mode :: height :: glyphBytes =>
      if magic0 ≠ 0x36 ∨ magic1 ≠ 0x04 then .raise .fontBadMagic
      else if height ≠ 0x10 then .raise .fontBadHeight
      else if mode ∈ cfg.fontModesRefused then .unsupported
      else if h : 4096 ≤ glyphBytes.length then .load (glyphsOf glyphBytes h)
      else .raise .fontShortGlyphs
    | _ => .raise .fontShortHeader

/-- FONTLOAD below the quiescent check (40_font_load.md R102). -/
def loadFont (s : State) : Host.Outcome State Fault Refusal :=
  match fontVerdict s.cfg s.fontOk s.stream with
  | .raise k => .next (s.raiseFault k)
  | .unsupported => .next s.raiseUnsupportedFont
  | .load g => .next (s.setGlyphs g)

/-- FONTLOAD (40_font_load.md R100). -/
def execFontload (s : State) : Host.Outcome State Fault Refusal := unlessQuiescent s loadFont

end Sys2Proof.Machine
end

