-- ==== Sys2Proof/Machine/Teletype.lean ====
section
/-! DEFINITION. TTYPUT, the teletype cell writer (41_teletype.md). -/

namespace Sys2Proof.Machine

/-- TTY_ATTR: foreground 7, background 0 (41_teletype.md R124). -/
def ttyAttr : Byte := 0x07

/-- Write cell (char, attr) at address a: the character byte first, then the attribute byte
(41_teletype.md R123). -/
def writeCell (m : Memory) (a : Nat) (c : Cell) : Memory := (m.write a c.char).write (a + 1) c.attr

/-- Where the move of SCROLL takes one listed byte: a byte outside the window stays, row 0 is lost, every
other byte of the window goes 160 bytes down (41_teletype.md R127). -/
def movedUp (base : Nat) (c : Host.Cell) : Option Host.Cell :=
  if c.1 < base ∨ base + windowBytes ≤ c.1 then some c
  else if c.1 < base + rowBytes then none
  else some (c.1 - rowBytes, c.2)

/-- The first half of SCROLL as "an overlap-safe move of 3840 bytes" (41_teletype.md R127). It equals the
ascending loop of R127, byte by byte (scrollLoop in Safety.lean); moving the listed bytes at once keeps it
cheap to evaluate. -/
def scrollRows (base : Nat) (m : Memory) : Memory := m.filterMap (movedUp base)

/-- The second loop of SCROLL for j in 0 .. n − 1: blank cells from address a up (41_teletype.md R127). -/
def fillCells (fill : Cell) (a : Nat) (m : Memory) (n : Nat) : Memory :=
  (List.range n).foldl (fun m j => writeCell m (a + 2 * j) fill) m

/-- SCROLL: rows 1 to 24 move up to rows 0 to 23, row 24 is filled (41_teletype.md R127). -/
def scroll (cfg : Config) (m : Memory) : Memory :=
  fillCells cfg.scrollFill (cfg.videoBase.val + 3840) (scrollRows cfg.videoBase.val m) cols

/-- The cursor's advance, with the wrap at column 80 and the scroll at row 25 (41_teletype.md R123, R125,
R126). -/
def advanceCursor (s : State) : State :=
  let wraps := s.curCol.toNat + 1 = 80
  let col := if wraps then 0 else s.curCol.toNat + 1
  let row := if wraps then s.curRow.toNat + 1 else s.curRow.toNat
  if row = 25 then (s.setMem (scroll s.cfg s.mem)).setCursor col 24 else s.setCursor col row

/-- TTYPUT below the quiescent check: the cell at the cursor, then the advance (41_teletype.md R123). No
character code is special (R128). -/
def teletype (c : Byte) (s : State) : Host.Outcome State Fault Refusal :=
  if s.cursorLegal then .next (advanceCursor (s.setMem (writeCell s.mem s.cursorAddress ⟨c, ttyAttr⟩)))
  else .fault .cursorOutOfRange

/-- TTYPUT (41_teletype.md R122). -/
def execTtyput (c : Byte) (s : State) : Host.Outcome State Fault Refusal := unlessQuiescent s (teletype c)

end Sys2Proof.Machine
end

