-- ==== Sys2Proof/Machine/Dispatch.lean ====
section
/-! DEFINITION. One arm per command: its meaning. -/

namespace Sys2Proof.Machine

def exec (i : Instr) (s : State) : Host.Outcome State Fault Refusal :=
  match i with
  | .fontload => Sys2Proof.Machine.execFontload s
  | .ttyput c => Sys2Proof.Machine.execTtyput c s
  | .compose => Sys2Proof.Machine.execCompose s

end Sys2Proof.Machine
end

