-- ==== Sys2Proof/Machine/Command.lean ====
section
/-! DEFINITION. Running one command word, and the dispatcher's routing of a software interrupt. -/

namespace Sys2Proof.Machine

/-- One command: W is decoded, and the command it selects runs or the decode fault is raised; a quiescent
block ignores it (30_encoding.md R72, 60_exceptions.md R176). -/
def runCommand (w : Word) (s : State) : Host.Outcome State Fault Refusal :=
  match decode w with
  | .ok i => exec i s
  | .error f => unlessQuiescent s fun s => .next (s.raiseFault (decodeFaultCode f))

/-- The vector of the video service (41_teletype.md R120). -/
def videoVector : Byte := 0x10

/-- The sub-service in AH of teletype output (41_teletype.md R120). -/
def teletypeService : Byte := 0x0E

/-- A software interrupt with vector v: TTYPUT AL for vector 0x10 with AH = 0x0E, otherwise nothing
(41_teletype.md R120, R121). -/
def softwareInterrupt (v : Byte) (s : State) : Host.Outcome State Fault Refusal :=
  if v = videoVector ∧ s.ah = teletypeService then runCommand (encode (.ttyput s.al)) s else .next s

end Sys2Proof.Machine
end

