-- ==== Sys2Proof/Machine/Sequencer.lean ====
section
/-! DEFINITION. The frame sequencer: startup, then poll, one host instruction, COMPOSE, present, one step
each (42_compose.md R153 to R157, 70_reset_and_hazards.md R203 to R205). -/

namespace Sys2Proof.Machine

/-- A fixed device qualifies for boot: the signature 0xAA55, little-endian, at offsets 510 and 511
(70_reset_and_hazards.md R203 (b), 20_memory.md R52). -/
def qualifiesForBoot (device : List Byte) : Bool := device[510]? == some 0x55#8 && device[511]? == some 0xAA#8

/-- Boot selection: the first fixed device that qualifies has its first 512 bytes copied to the boot
location; without one the run ends before frame 1 (70_reset_and_hazards.md R203 (b)). -/
def bootSelection (devices : List (List Byte)) (location : Nat) (s : State) :
    Host.Outcome State Fault Refusal :=
  match devices.find? qualifiesForBoot with
  | none => .next (s.setPhase (.ended .noBootDevice))
  | some d =>
    if location + 512 ≤ memSize then
      .next { s with mem := s.mem.writeBytes location (d.take 512), bootDone := true }
    else .fault .addressOutOfRange

/-- Startup: a fault ends the run; with the font loaded and boot selection finished, frame 1 starts;
otherwise the next event happens, or the machine waits for one (70_reset_and_hazards.md R203 to R205). -/
def startupStep (s : State) : Host.Outcome State Fault Refusal :=
  if s.faulted then .next (s.setPhase (.ended .startupFault))
  else if s.fontOk && s.bootDone then .next (s.setPhase .poll)
  else match s.startup with
    | [] => .next s
    | .font l :: rest => runCommand (encode .fontload) ({ s with startup := rest }.setStream l)
    | .boot devices location :: rest => bootSelection devices location { s with startup := rest }

/-- Step 1 of a frame: a pending shutdown ends the run; otherwise step 2 follows, or step 3 where the
executor is halted (42_compose.md R154, R155, R156). An answer that is not listed is "no event". -/
def pollStep (s : State) : Host.Outcome State Fault Refusal :=
  let t := { s with polls := s.polls.tail }
  if s.polls.head? = some true then .next (t.setPhase (.ended .shutdown))
  else if s.halted then .next (t.setPhase .compose)
  else .next (t.setPhase .execute)

/-- Step 2 of a frame: what the executor's one instruction does to the block (42_compose.md R154, R157). -/
def executeStep (s : State) : Host.Outcome State Fault Refusal :=
  match s.guest with
  | [] => .refused .executorOutOfScope
  | a :: rest =>
    let t := { s with guest := rest }.setPhase .compose
    match a with
    | .softInt v => softwareInterrupt v t
    | .moveAcc v => .next (t.setAcc v)
    | .moveAl v => .next (t.setAcc (withAl t.acc v))
    | .moveAh v => .next (t.setAcc (withAh t.acc v))
    | .hlt => .next { t with halted := true }
    | .decodeError => .next (t.setPhase (.ended .decodeError))
    | .other => .next t

/-- Step 3 of a frame: COMPOSE (42_compose.md R154). -/
def composeStep (s : State) : Host.Outcome State Fault Refusal :=
  runCommand (encode .compose) (s.setPhase .present)

/-- Step 4 of a frame: the frame buffer as it stands goes to the presentation surface (42_compose.md R153). -/
def presentStep (s : State) : Host.Outcome State Fault Refusal :=
  .next ({ s with presented := some s.fb }.setPhase .poll)

/-- One step of the frame sequencer. -/
def sequencerStep (s : State) : Host.Outcome State Fault Refusal :=
  match s.phase with
  | .startup => startupStep s
  | .poll => pollStep s
  | .execute => executeStep s
  | .compose => composeStep s
  | .present => presentStep s
  | .ended _ => .fault .runEnded

/-- The first command at the port, with its font stream (10_state.md R22, R35). -/
def portStep (c : Command) (rest : List Command) (s : State) : Host.Outcome State Fault Refusal :=
  runCommand c.word ((s.setPort rest).setStream c.stream)

/-- A command with the word w at the front of the port, the font stream in hand handed over with it. -/
def pushCommand (w : Word) (s : State) : State := s.setPort (⟨w, s.stream⟩ :: s.port)

end Sys2Proof.Machine
end

