-- ==== Sys2Proof/Machine/Step.lean ====
section
/-! DEFINITION. One step of the machine: the first command at the port, or else the frame sequencer's next
step (log 1, 14). -/

namespace Sys2Proof.Machine

/-- One step (10_state.md R22, 42_compose.md R154). -/
def step (s : State) : Host.Outcome State Fault Refusal :=
  match s.port with
  | c :: rest => portStep c rest s
  | [] => sequencerStep s

/-- The command word whose low nbits bits are w's, the rest 0, at the front of the command port, where step
takes its next command (log 1). -/
def State.withFetchWord (s : State) (nbits w : Nat) : State := pushCommand (BitVec.ofNat 32 (w % 2 ^ nbits)) s

end Sys2Proof.Machine
end

