-- ==== Sys2Proof/Machine/Assembler.lean ====
section
/-! DEFINITION. The assembler syntax of VTC command streams and its two pseudo-instructions (30_encoding.md
R76, R77). The source text is a list of characters, one for each byte of it (log 23). -/

namespace Sys2Proof.Machine

/-- `PUTS "<text>"`: one TTYPUT per byte of the text, in order, no terminator (30_encoding.md R77). -/
def expandPuts (text : List Byte) : List Instr := text.map .ttyput

/-- `FILL <n>, <imm8>`: n copies of TTYPUT imm8 (30_encoding.md R77). -/
def expandFill (n : Nat) (c : Byte) : List Instr := List.replicate n (.ttyput c)

/-- A blank between the parts of a line; which characters are blanks is the model's choice (DESIGN CHOICE,
log 23). -/
def isBlank (c : Char) : Bool := c = ' ' || c = '\t' || c = '\r'

/-- The rest of a line holds nothing, or a comment, which begins with `;` (30_encoding.md R76). -/
def lineEnds (l : List Char) : Bool :=
  match l.dropWhile isBlank with
  | [] => true
  | c :: _ => c = ';'

/-- The value of a decimal digit. -/
def decDigit (c : Char) : Option Nat := if c.isDigit then some (c.toNat - 48) else none

/-- The value of a hexadecimal digit, in either case. -/
def hexDigit (c : Char) : Option Nat :=
  if c.isDigit then some (c.toNat - 48)
  else if 'a' ≤ c ∧ c ≤ 'f' then some (c.toNat - 87)
  else if 'A' ≤ c ∧ c ≤ 'F' then some (c.toNat - 55)
  else none

/-- The longest run of digits at the front, as a number (none where there is no digit), and what follows. -/
def readDigits (digit : Char → Option Nat) (base : Nat) : Option Nat → List Char → Option Nat × List Char
  | acc, [] => (acc, [])
  | acc, c :: l =>
    match digit c with
    | some d => readDigits digit base (some (acc.getD 0 * base + d)) l
    | none => (acc, c :: l)

/-- A number: hexadecimal after `0x`, else decimal (30_encoding.md R76), of one or more digits (DESIGN CHOICE,
log 23). -/
def readNumber (l : List Char) : Option (Nat × List Char) :=
  let r := match l with
    | '0' :: 'x' :: l => readDigits hexDigit 16 none l
    | l => readDigits decDigit 10 none l
  r.1.map fun n => (n, r.2)

/-- An imm8: a number 0 to 255 or a quoted ASCII character (30_encoding.md R76). -/
def readImm8 (l : List Char) : Option (Byte × List Char) :=
  match l with
  | '\'' :: c :: '\'' :: l => if c.toNat < 128 then some (BitVec.ofNat 8 c.toNat, l) else none
  | l => (readNumber l).bind fun r => if r.1 < 256 then some (BitVec.ofNat 8 r.1, r.2) else none

/-- The double quote. -/
def quoteChar : Char := Char.ofNat 34

/-- The bytes of a quoted text and what follows its closing quote (30_encoding.md R77); without escapes (DESIGN
CHOICE, log 23). -/
def readText (l : List Char) : Option (List Byte × List Char) :=
  match l with
  | [] => none
  | q :: l =>
    let text := l.takeWhile (· ≠ quoteChar)
    let rest := l.dropWhile (· ≠ quoteChar)
    if q = quoteChar ∧ rest ≠ [] ∧ text.all (·.toNat < 256) then
      some (text.map fun c => BitVec.ofNat 8 c.toNat, rest.drop 1)
    else none

/-- The operands of FILL: a count, a comma, an imm8 (30_encoding.md R77). -/
def readFill (l : List Char) : Option (List Instr × List Char) :=
  (readNumber l).bind fun n =>
    match n.2.dropWhile isBlank with
    | ',' :: l => (readImm8 (l.dropWhile isBlank)).map fun c => (expandFill n.1 c.1, c.2)
    | _ => none

/-- What a mnemonic (in capitals) and its operands assemble to, and what follows them. -/
def readOperands (mnemonic : List Char) (l : List Char) : Option (List Instr × List Char) :=
  if mnemonic = ['F', 'O', 'N', 'T', 'L', 'O', 'A', 'D'] then some ([.fontload], l)
  else if mnemonic = ['C', 'O', 'M', 'P', 'O', 'S', 'E'] then some ([.compose], l)
  else if mnemonic = ['T', 'T', 'Y', 'P', 'U', 'T'] then
    (readImm8 (l.dropWhile isBlank)).map fun c => ([.ttyput c.1], c.2)
  else if mnemonic = ['P', 'U', 'T', 'S'] then
    (readText (l.dropWhile isBlank)).map fun t => (expandPuts t.1, t.2)
  else if mnemonic = ['F', 'I', 'L', 'L'] then readFill (l.dropWhile isBlank)
  else none

/-- One line; none is an assembly error. Mnemonics are case-insensitive (30_encoding.md R76). That a line with
nothing on it but blanks or a comment assembles to no command is the model's choice (DESIGN CHOICE, log 23). -/
def assembleLine (l : List Char) : Option (List Instr) :=
  if lineEnds l then some []
  else
    let body := l.dropWhile isBlank
    let mnemonic := (body.takeWhile Char.isAlpha).map Char.toUpper
    match readOperands mnemonic (body.dropWhile Char.isAlpha) with
    | some (is, rest) => if lineEnds rest then some is else none
    | none => none

/-- The lines of a text. -/
def splitLines : List Char → List (List Char)
  | [] => [[]]
  | c :: l =>
    if c = '\n' then [] :: splitLines l
    else match splitLines l with
      | first :: others => (c :: first) :: others
      | [] => [[c]]

/-- A source text, one command per line (30_encoding.md R76); one line in error makes it an error (DESIGN CHOICE,
log 23). -/
def assemble (text : List Char) : Option (List Instr) :=
  (splitLines text).foldr (fun l r => (assembleLine l).bind fun is => r.map fun js => is ++ js) (some [])

/-- The commands a host issues for a command stream, the font stream S going with each word (30_encoding.md
R71, R76). -/
def commandsOf (is : List Instr) (stream : List Byte) : List Command := is.map fun i => ⟨encode i, stream⟩

end Sys2Proof.Machine
end

