-- ==== Sys2Proof/Safety.lean ====
section
/-! DEFINITION. What claims are stated in terms of: the invariant of the machine, the block's part of the
state, and the loops of the spec that a definition of the model condenses. -/

namespace Sys2Proof.Machine

/-- The sequencer is inside a frame (42_compose.md R154). -/
def Phase.inFrame : Phase → Bool
  | .startup => false
  | .poll => true
  | .execute => true
  | .compose => true
  | .present => true
  | .ended _ => false

/-- What holds of every state a run reaches. -/
structure State.Inv (s : State) : Prop where
  /-- Memory is in its canonical form. -/
  memWf : s.mem.wf
  /-- The cursor is a position of the grid (10_state.md R27). -/
  cursorCol : s.curCol.toNat < 80
  cursorRow : s.curRow.toNat < 25
  /-- FONT_OK is 1 exactly when the glyph table holds a value (10_state.md R25, R29). -/
  fontTable : s.fontOk = s.glyphs.isSome
  /-- A composed frame needs a font (42_compose.md R141). -/
  validNeedsFont : s.fbValid = true → s.fontOk = true
  /-- Before the first COMPOSE the frame buffer holds its reset value (10_state.md R28, R32). -/
  frameAtReset : s.fbValid = false → s.fb = FrameBuffer.reset
  /-- No frame runs before the font is loaded and boot selection has finished (70_reset_and_hazards.md R205). -/
  framesStarted : s.phase.inFrame = true → s.fontOk = true ∧ s.bootDone = true

/-- Two states agree on everything the block owns and on the memory it writes (10_state.md, R33). -/
def SameBlock (s t : State) : Prop :=
  t.fontOk = s.fontOk ∧ t.fault = s.fault ∧ t.fbValid = s.fbValid ∧ t.curCol = s.curCol ∧
    t.curRow = s.curRow ∧ t.glyphs = s.glyphs ∧ t.fb = s.fb ∧ t.mem = s.mem

/-- An address of the video window (10_state.md R34, 20_memory.md R63). -/
def InWindow (cfg : Config) (a : Nat) : Prop :=
  cfg.videoBase.val ≤ a ∧ a < cfg.videoBase.val + windowBytes

/-- The first loop of SCROLL as 41_teletype.md R127 writes it, for k in 0 .. n − 1. -/
def scrollLoopRows (base : Nat) (m : Memory) (n : Nat) : Memory :=
  (List.range n).foldl (fun m k => m.write (base + k) (m.read (base + k + 160))) m

/-- SCROLL, both loops, as 41_teletype.md R127 writes it. -/
def scrollLoop (cfg : Config) (m : Memory) : Memory :=
  (List.range 80).foldl
    (fun m j => (m.write (cfg.videoBase.val + 3840 + 2 * j) cfg.scrollFill.char).write
      (cfg.videoBase.val + 3840 + 2 * j + 1) cfg.scrollFill.attr)
    (scrollLoopRows cfg.videoBase.val m 3840)

/-- A run ended well so far: no fault is recorded (60_exceptions.md R173). -/
def NoFaultRecorded (o : Host.Outcome State Fault Refusal) : Prop :=
  ∃ t, o = .next t ∧ t.fault = .none

end Sys2Proof.Machine
end

