-- ==== Sys2Proof/Certificates/Slice0/Obligations.lean ====
section
/-! DEFINITION. The statements about the model, for the provers. Rules R<n> are those of spec/. -/

open Sys2Proof Sys2Proof.Machine

/-! ## Decoding and running a command word -/

/-- The command words of spec/95_test_vectors.md 2.1 decode to what that table gives. -/
def Obligations.SpecWordsDecode : Prop :=
  decode 0x01000000 = .ok .fontload ∧ decode 0x02000041 = .ok (.ttyput 0x41) ∧
    decode 0x020000FF = .ok (.ttyput 0xFF) ∧ decode 0x03000000 = .ok .compose ∧
    decode 0x00000000 = .error .badOp ∧ decode 0x04000000 = .error .badOp ∧
    decode 0xFF000041 = .error .badOp ∧ decode 0x02000100 = .error .reservedBits ∧
    decode 0x02800000 = .error .reservedBits ∧ decode 0x03000001 = .error .reservedBits ∧
    decode 0x01000001 = .error .reservedBits

/-- Decoding the word of a command gives the command back, with its operand at every value. -/
def Obligations.DecodeInvertsEncode : Prop := ∀ i : Instr, decode (encode i) = .ok i

/-- A word that decodes to a command is the word of that command: no bit of it is dropped. -/
def Obligations.DecodedWordIsItsEncoding : Prop :=
  ∀ (w : Word) (i : Instr), decode w = .ok i → encode i = w

/-- A word decodes to a command exactly when it fits one row of the opcode table, by match and mask, and
then it fits no other row (R71, R72). -/
def Obligations.DecodesExactlyTableWords : Prop :=
  ∀ w : Word, (∃ i, decode w = .ok i) ↔ (opcodeTable.filter fun r => r.fits w).length = 1

/-- The decoding procedure of R72, whole: the quiescent check, CMD_BAD_OP, CMD_RESERVED_BITS, then the
command that OP selects, TTYPUT with IMM8. -/
def Obligations.DecodeProcedure : Prop :=
  ∀ (w : Word) (s : State), runCommand w s =
    (let op := w.extractLsb' 24 8
     let rsv := w.extractLsb' 8 16
     let imm := w.extractLsb' 0 8
     if s.fault ≠ .none then .next s
     else if op ≠ 0x01 ∧ op ≠ 0x02 ∧ op ≠ 0x03 then .next { s with fault := .cmdBadOp }
     else if rsv ≠ 0 ∨ (op ≠ 0x02 ∧ imm ≠ 0) then .next { s with fault := .cmdReservedBits }
     else if op = 0x01 then exec .fontload s
     else if op = 0x02 then exec (.ttyput imm) s
     else exec .compose s)

/-- When the first word at the port decodes to i, a step is exec of i at the state with that command taken
off the port and its font stream in hand. -/
def Obligations.StepRunsTheDecodedCommand : Prop :=
  ∀ (s : State) (c : Command) (rest : List Command) (i : Instr),
    s.port = c :: rest → decode c.word = .ok i →
      step s = exec i { s with port := rest, stream := c.stream }

/-- The word withFetchWord places is the one the very next step runs, at exactly the state it was placed in. -/
def Obligations.FetchWordIsRunNext : Prop :=
  ∀ (s : State) (w : Nat), w < 2 ^ 32 → step (s.withFetchWord 32 w) = runCommand (BitVec.ofNat 32 w) s

/-! ## Faults and STATUS -/

/-- A command that raises a fault changes FAULT, and with it FAULTED, and nothing else (R171). The index of the
next free value is the model's own field, not the spec's, and when it moves is the model's choice (log 28): only
where a MODE byte can be refused (log 7), never under the default parameters. -/
def Obligations.RaisedFaultHasNoOtherEffect : Prop :=
  ∀ (w : Word) (s t : State), s.fault = .none → runCommand w s = .next t → t.fault ≠ .none →
    t = { s with fault := t.fault, freeIndex := t.freeIndex } ∧ t.faulted = true ∧
      (s.cfg.fontModesRefused = [] → t.freeIndex = s.freeIndex)

/-- After a fault every command word is ignored, whatever it is, and no step of the machine changes the
block or the window; FAULT keeps its first code (R173). -/
def Obligations.FaultedBlockIsQuiescent : Prop :=
  (∀ (w : Word) (s : State), s.fault ≠ .none → runCommand w s = .next s) ∧
    ∀ s t : State, s.fault ≠ .none → step s = .next t → SameBlock s t

/-- exec of any command leaves a faulted block as it is. -/
def Obligations.FaultedBlockIgnoresExec : Prop :=
  ∀ (i : Instr) (s : State), s.fault ≠ .none → exec i s = .next s

/-- The ten fault codes of R172 with their numbers; no fault has a number above 9, and no two share one. -/
def Obligations.FaultCodeNumbers : Prop :=
  [FaultCode.none, .fontMissing, .fontShortHeader, .fontBadMagic, .fontBadHeight, .fontShortGlyphs,
      .cmdBadOp, .cmdReservedBits, .cmdFontReload, .cmdNotReady].map FaultCode.code =
    [0x0, 0x1, 0x2, 0x3, 0x4, 0x5, 0x6, 0x7, 0x8, 0x9] ∧
    (∀ k : FaultCode, k.code.toNat ≤ 9) ∧ ∀ k l : FaultCode, k.code = l.code → k = l

/-- The fields of STATUS stand where R24 puts them, FAULTED is (FAULT ≠ 0), the reserved bits read 0. -/
def Obligations.StatusFieldsInPlace : Prop :=
  ∀ s : State, s.status.getLsbD 0 = s.fontOk ∧ s.status.getLsbD 1 = (s.fault != .none) ∧
    s.status.getLsbD 2 = s.fbValid ∧ s.status.getLsbD 3 = false ∧
    s.status.extractLsb' 4 4 = s.fault.code ∧ s.status.extractLsb' 8 8 = s.curCol ∧
    s.status.extractLsb' 16 8 = s.curRow ∧ s.status.extractLsb' 24 8 = 0#8

/-! ## FONTLOAD -/

/-- A font with a good header and at least 256 glyphs loads: GLYPH[c][r] is S[4 + 16c + r], FONT_OK is 1 and
nothing else changes (R107, R108). The MODE byte is one the parameter FONT_MODE_OK accepts (R105), by default
any. -/
def Obligations.FontloadLoadsTheTable : Prop :=
  ∀ (s : State) (mode : Byte), s.fault = .none → s.fontOk = false →
    s.stream[0]? = some 0x36#8 → s.stream[1]? = some 0x04#8 → s.stream[2]? = some mode →
    mode ∉ s.cfg.fontModesRefused → s.stream[3]? = some 0x10#8 → 4100 ≤ s.stream.length →
      ∃ g : GlyphTable, exec .fontload s = .next { s with glyphs := some g, fontOk := true } ∧
        ∀ (c : Fin 256) (r : Fin 16), s.stream[4 + 16 * c.val + r.val]? = some ((g[c.val])[r.val])

/-- The checks of FONTLOAD and the fault each raises, in the order of R102: a second load, no stream, a short
header, the magic bytes in their order, the height, too few glyphs (the last for a MODE byte that the parameter
FONT_MODE_OK accepts, log 7). -/
def Obligations.FontloadFaultsInOrder : Prop :=
  ∀ s : State, s.fault = .none →
    (s.fontOk = true → exec .fontload s = .next { s with fault := .cmdFontReload }) ∧
    (s.fontOk = false →
      (s.stream.length = 0 → exec .fontload s = .next { s with fault := .fontMissing }) ∧
      (1 ≤ s.stream.length → s.stream.length ≤ 3 →
        exec .fontload s = .next { s with fault := .fontShortHeader }) ∧
      (4 ≤ s.stream.length → (s.stream[0]? ≠ some 0x36#8 ∨ s.stream[1]? ≠ some 0x04#8) →
        exec .fontload s = .next { s with fault := .fontBadMagic }) ∧
      (4 ≤ s.stream.length → s.stream[0]? = some 0x36#8 → s.stream[1]? = some 0x04#8 →
        (s.stream[3]? ≠ some 0x10#8 → exec .fontload s = .next { s with fault := .fontBadHeight }) ∧
        ∀ mode, s.stream[2]? = some mode → mode ∉ s.cfg.fontModesRefused → s.stream[3]? = some 0x10#8 →
          s.stream.length < 4100 → exec .fontload s = .next { s with fault := .fontShortGlyphs }))

/-- Where the parameter FONT_MODE_OK refuses the MODE byte of a font with a good header (R105), FONTLOAD raises one
of the five faults of a "missing/corrupt/unsupported font" (R112) and changes nothing else of the block (R109,
R171). Which of the five the spec does not state: it is a free value, and the place of this check among the others
is the model's choice (log 7, 28). -/
def Obligations.FontloadFaultsOnRefusedMode : Prop :=
  ∀ (s : State) (mode : Byte), s.fault = .none → s.fontOk = false →
    s.stream[0]? = some 0x36#8 → s.stream[1]? = some 0x04#8 → s.stream[2]? = some mode →
    s.stream[3]? = some 0x10#8 → mode ∈ s.cfg.fontModesRefused →
      ∃ k ∈ [FaultCode.fontMissing, .fontShortHeader, .fontBadMagic, .fontBadHeight, .fontShortGlyphs],
        exec .fontload s = .next { s with fault := k, freeIndex := s.freeIndex + 1 }

/-- Bytes beyond offset 4099 have no effect, whatever they are (R106). -/
def Obligations.FontloadIgnoresTrailingBytes : Prop :=
  ∀ (s t : State) (extra : List Byte), 4100 ≤ s.stream.length → exec .fontload s = .next t →
    exec .fontload { s with stream := s.stream ++ extra } = .next { t with stream := s.stream ++ extra }

/-- With FONT_MODE_OK at its default, FONTLOAD always completes, and two streams that differ in the MODE byte
only do the same (R105). -/
def Obligations.FontloadIgnoresModeByte : Prop :=
  ∀ (s : State) (a b mode mode' : Byte) (rest : List Byte), s.cfg.fontModesRefused = [] →
    ∃ t, exec .fontload { s with stream := a :: b :: mode :: rest } = .next t ∧
      exec .fontload { s with stream := a :: b :: mode' :: rest } =
        .next { t with stream := a :: b :: mode' :: rest }

/-- FONTLOAD completes in every state and is all-or-nothing: it is ignored, or raises a fault and changes nothing
else, or writes the whole table and FONT_OK and changes nothing else (R108, R109). The fault of a refused MODE byte
also moves on the model's own index of the next free value (log 28). -/
def Obligations.FontloadIsAllOrNothing : Prop :=
  ∀ s : State, ∃ t, exec .fontload s = .next t ∧
    ((s.fault ≠ .none ∧ t = s) ∨
      (s.fault = .none ∧ ∃ k, k ≠ .none ∧ t = { s with fault := k }) ∨
      (s.fault = .none ∧ s.cfg.fontModesRefused ≠ [] ∧
        ∃ k, k ≠ .none ∧ t = { s with fault := k, freeIndex := s.freeIndex + 1 }) ∨
      (s.fault = .none ∧ s.fontOk = false ∧ ∃ g, t = { s with glyphs := some g, fontOk := true }))

/-- Once the font is loaded no step of the machine changes the glyph table or clears FONT_OK (R25, R110). -/
def Obligations.GlyphTableIsImmutable : Prop :=
  ∀ s t : State, s.fontOk = true → step s = .next t → t.fontOk = true ∧ t.glyphs = s.glyphs

/-! ## TTYPUT -/

/-- TTYPUT does what the pseudocode of R123 says: character, then attribute 0x07, at the cursor's cell; the
column advances and wraps at 80; at row 25 the loops of SCROLL run and the row is 24 (R124 to R128). The cell that
fills row 24 is the parameter SCROLL_FILL, which is the model's choice (log 6); its default is R127's (0x20,
0x07). -/
def Obligations.TtyputFollowsPseudocode : Prop :=
  ∀ (s : State) (c : Byte), s.fault = .none → s.mem.wf → s.curCol.toNat < 80 → s.curRow.toNat < 25 →
    exec (.ttyput c) s = .next
      (let i := s.curRow.toNat * 80 + s.curCol.toNat
       let m := (s.mem.write (s.cfg.videoBase.val + 2 * i) c).write (s.cfg.videoBase.val + 2 * i + 1) 0x07
       let col := if s.curCol.toNat + 1 = 80 then 0 else s.curCol.toNat + 1
       let row := if s.curCol.toNat + 1 = 80 then s.curRow.toNat + 1 else s.curRow.toNat
       { s with
         mem := if row = 25 then scrollLoop s.cfg m else m
         curCol := BitVec.ofNat 8 col
         curRow := BitVec.ofNat 8 (if row = 25 then 24 else row) })

/-- Away from the last cell, TTYPUT stores its character and 0x07 at the two bytes of the cursor's cell,
moves the cursor along the row or to the start of the next one, and leaves every other byte and everything
else as it was; the column never becomes 80 (R124, R125). -/
def Obligations.TtyputWritesOneCellAndAdvances : Prop :=
  ∀ (s : State) (c : Byte), s.fault = .none → s.curCol.toNat < 80 → s.curRow.toNat < 25 →
    ¬(s.curCol.toNat = 79 ∧ s.curRow.toNat = 24) →
      ∃ t, exec (.ttyput c) s = .next t ∧
        t.readByte (s.cfg.videoBase.val + 2 * (s.curRow.toNat * 80 + s.curCol.toNat)) = c ∧
        t.readByte (s.cfg.videoBase.val + 2 * (s.curRow.toNat * 80 + s.curCol.toNat) + 1) = 0x07 ∧
        (∀ a, a ≠ s.cfg.videoBase.val + 2 * (s.curRow.toNat * 80 + s.curCol.toNat) →
          a ≠ s.cfg.videoBase.val + 2 * (s.curRow.toNat * 80 + s.curCol.toNat) + 1 →
            t.readByte a = s.readByte a) ∧
        (s.curCol.toNat < 79 → t.curCol.toNat = s.curCol.toNat + 1 ∧ t.curRow = s.curRow) ∧
        (s.curCol.toNat = 79 → t.curCol.toNat = 0 ∧ t.curRow.toNat = s.curRow.toNat + 1) ∧
        t = { s with mem := t.mem, curCol := t.curCol, curRow := t.curRow }

/-- At the last cell, TTYPUT scrolls at once: rows 1 to 24 move up one row with the cell just written, which
ends at offsets 3838 and 3839; row 24 is filled with the scroll fill; the cursor is at (0, 24); every byte
outside the window and everything else stays (R126, R127, R132 (c)). The fill is the parameter SCROLL_FILL, which is
the model's choice (log 6); its default is R127's (0x20, 0x07). -/
def Obligations.TtyputAtLastCellScrolls : Prop :=
  ∀ (s : State) (c : Byte), s.fault = .none → s.curCol.toNat = 79 → s.curRow.toNat = 24 →
    ∃ t, exec (.ttyput c) s = .next t ∧ t.curCol.toNat = 0 ∧ t.curRow.toNat = 24 ∧
      (∀ k, k < 3838 → t.readByte (s.cfg.videoBase.val + k) = s.readByte (s.cfg.videoBase.val + k + 160)) ∧
      t.readByte (s.cfg.videoBase.val + 3838) = c ∧ t.readByte (s.cfg.videoBase.val + 3839) = 0x07 ∧
      (∀ j, j < 80 → t.readByte (s.cfg.videoBase.val + 3840 + 2 * j) = s.cfg.scrollFill.char ∧
        t.readByte (s.cfg.videoBase.val + 3840 + 2 * j + 1) = s.cfg.scrollFill.attr) ∧
      (∀ a, ¬InWindow s.cfg a → t.readByte a = s.readByte a) ∧
      t = { s with mem := t.mem, curCol := t.curCol, curRow := t.curRow }

/-- On every canonical memory the model's SCROLL equals the two loops of R127, run byte by byte in ascending
order, with the scroll fill of the parameters, by default (0x20, 0x07). The fill as a parameter is the model's
choice (log 6), and so is writing SCROLL as a move in one pass (log 13). -/
def Obligations.ScrollEqualsTheSpecLoops : Prop :=
  (∀ (cfg : Config) (m : Memory), m.wf → scroll cfg m = scrollLoop cfg m) ∧
    defaultConfig.scrollFill = ⟨0x20, 0x07⟩

/-- Whatever the cursor and the form, TTYPUT writes no host register (R129), no byte outside the window and
nothing but memory and the cursor: not the frame buffer, not FB_VALID (R34, R130). -/
def Obligations.TtyputTouchesOnlyWindowAndCursor : Prop :=
  ∀ (s t : State) (c : Byte), exec (.ttyput c) s = .next t →
    t.acc = s.acc ∧ (∀ a, ¬InWindow s.cfg a → t.readByte a = s.readByte a) ∧
      t = { s with mem := t.mem, curCol := t.curCol, curRow := t.curRow }

/-- No character code is special: any two codes leave the cursor at the same place and memories that differ
only where one holds the one code and the other the other (R128). -/
def Obligations.NoCharacterCodeIsSpecial : Prop :=
  ∀ (s t : State) (c d : Byte), s.fault = .none → exec (.ttyput c) s = .next t →
    ∃ u, exec (.ttyput d) s = .next u ∧ u.curCol = t.curCol ∧ u.curRow = t.curRow ∧
      ∀ a, t.readByte a ≠ u.readByte a → t.readByte a = c ∧ u.readByte a = d

/-- TTYPUT completes at every position of the grid and neither reads nor writes FONT_OK or the glyph table:
it does the same before and after any FONTLOAD (R131). -/
def Obligations.TtyputNeedsNoFont : Prop :=
  ∀ (s : State) (c : Byte), s.fault = .none → s.curCol.toNat < 80 → s.curRow.toNat < 25 →
    ∃ t, exec (.ttyput c) s = .next t ∧
      ∀ (b : Bool) (g : Option GlyphTable),
        exec (.ttyput c) { s with fontOk := b, glyphs := g } = .next { t with fontOk := b, glyphs := g }

/-- With a cursor outside the grid, which no run reaches, TTYPUT stops by name (the model's choice, log 10). -/
def Obligations.TtyputStopsOffTheGrid : Prop :=
  ∀ (s : State) (c : Byte), s.fault = .none → (80 ≤ s.curCol.toNat ∨ 25 ≤ s.curRow.toNat) →
    exec (.ttyput c) s = .fault .cursorOutOfRange

/-! ## COMPOSE -/

/-- COMPOSE paints every pixel by the equation of R147 and sets FB_VALID; nothing else changes (R148). Pixel
(x, y) of cell (x / 8, y / 16) is PAL[at[3:0]] where bit 7 − (x mod 8) of row y mod 16 of the cell's glyph is
1, else PAL[at[7:4]]. Bit x mod 8 instead, where the parameter GLYPH_MSB_LEFT is off, is the model's choice
(log 6). -/
def Obligations.ComposePaintsEveryPixel : Prop :=
  ∀ (s : State) (g : GlyphTable), s.fault = .none → s.fontOk = true → s.glyphs = some g →
    ∃ f : FrameBuffer, exec .compose s = .next { s with fb := f, fbValid := true } ∧
      ∀ (x : Fin 640) (y : Fin 400),
        let i := (y.val / 16) * 80 + x.val / 8
        let ch := s.readByte (s.cfg.videoBase.val + 2 * i)
        let attr := s.readByte (s.cfg.videoBase.val + 2 * i + 1)
        let b := glyphRow g ch ⟨y.val % 16, Nat.mod_lt _ (by decide)⟩
        (f[y.val])[x.val] =
          if b.getLsbD (if s.cfg.glyphMsbLeft then 7 - x.val % 8 else x.val % 8) then
            paletteEntry s.cfg (attr.extractLsb' 0 4)
          else paletteEntry s.cfg (attr.extractLsb' 4 4)

/-- COMPOSE before a font is loaded raises CMD_NOT_READY and writes no pixel (R141). -/
def Obligations.ComposeNeedsTheFont : Prop :=
  ∀ s : State, s.fault = .none → s.fontOk = false →
    exec .compose s = .next { s with fault := .cmdNotReady }

/-- With FONT_OK = 1 and no value in the glyph table, which no run reaches, COMPOSE stops by name (the model's
choice, log 11). -/
def Obligations.ComposeStopsWithoutTable : Prop :=
  ∀ s : State, s.fault = .none → s.fontOk = true → s.glyphs = none →
    exec .compose s = .fault .glyphTableUnset

/-- COMPOSE is pure: two blocks with equal window bytes, glyph tables and palettes get bit-identical frames,
whatever else differs, the place of the window and the old frame among it (R149, R151). -/
def Obligations.ComposeIsPure : Prop :=
  ∀ (s s' t t' : State), s.fault = .none → s'.fault = .none → s.fontOk = true → s'.fontOk = true →
    s.glyphs = s'.glyphs → s.cfg.palette = s'.cfg.palette → s.cfg.pixelLayout = s'.cfg.pixelLayout →
    s.cfg.glyphMsbLeft = s'.cfg.glyphMsbLeft →
    (∀ k, k < 4000 → s.readByte (s.cfg.videoBase.val + k) = s'.readByte (s'.cfg.videoBase.val + k)) →
    exec .compose s = .next t → exec .compose s' = .next t' → t.fb = t'.fb

/-- No cross-cell aliasing: memories that differ in the two bytes of cell (col, row) only give frames that
agree outside that cell's 8 × 16 block (R152 (h)). -/
def Obligations.ComposeHasNoCrossCellAliasing : Prop :=
  ∀ (s t t' : State) (m : Memory) (col row : Nat), s.fault = .none → s.fontOk = true →
    col < 80 → row < 25 →
    (∀ a, a ≠ cellAddress s.cfg (cellIndex col row) → a ≠ cellAddress s.cfg (cellIndex col row) + 1 →
      m.read a = s.mem.read a) →
    exec .compose s = .next t → exec .compose { s with mem := m } = .next t' →
      ∀ (x : Fin 640) (y : Fin 400), ¬(x.val / 8 = col ∧ y.val / 16 = row) →
        (t.fb[y.val])[x.val] = (t'.fb[y.val])[x.val]

/-- A cell whose two colours are the same is a solid block of that colour, whatever its glyph (R152 (a)). -/
def Obligations.EqualColoursGiveSolidCell : Prop :=
  ∀ (s t : State) (x : Fin 640) (y : Fin 400), s.fault = .none → s.fontOk = true →
    exec .compose s = .next t →
    fgIndex (s.fetchCell (cellIndex (x.val / 8) (y.val / 16))).attr =
      bgIndex (s.fetchCell (cellIndex (x.val / 8) (y.val / 16))).attr →
    (t.fb[y.val])[x.val] =
      paletteEntry s.cfg (fgIndex (s.fetchCell (cellIndex (x.val / 8) (y.val / 16))).attr)

/-- The window reads zero at reset; a COMPOSE of a zero window gives 256000 pixels of PAL[0], whatever the
font holds (R202, R33, R147); under the default palette that is opaque black. The default palette is PRESUMED, from
the spec's general-knowledge default (log 4). -/
def Obligations.ZeroWindowComposesToPalZero : Prop :=
  (∀ (cfg : Config) (a : Nat), (State.resetWith cfg).readByte a = 0x00) ∧
  (∀ (s : State) (g : GlyphTable), s.fault = .none → s.fontOk = true → s.glyphs = some g →
    (∀ k, k < 4000 → s.readByte (s.cfg.videoBase.val + k) = 0x00) →
      ∃ t, exec .compose s = .next t ∧
        ∀ (x : Fin 640) (y : Fin 400), (t.fb[y.val])[x.val] = paletteEntry s.cfg 0) ∧
  packPixel rgbaLayout ⟨0x00, 0x00, 0x00⟩ = paletteEntry defaultConfig 0 ∧
  paletteEntry defaultConfig 0 = 0xFF000000#32

/-- The sixteen pixels of the default palette, {A, B, G, R} with A = 0xFF (R31, R83). -/
def Obligations.DefaultPalettePixels : Prop :=
  (List.range 16).map (fun i => paletteEntry defaultConfig (BitVec.ofNat 4 i)) =
    [0xFF000000, 0xFFAA0000, 0xFF00AA00, 0xFFAAAA00, 0xFF0000AA, 0xFFAA00AA, 0xFF0055AA, 0xFFAAAAAA,
     0xFF555555, 0xFFFF5555, 0xFF55FF55, 0xFFFFFF55, 0xFF5555FF, 0xFFFF55FF, 0xFF55FFFF, 0xFFFFFFFF]

/-- Under the default layout, the four bytes of pixel (x, y) in the frame buffer, at 4p to 4p + 3 with
p = y × 640 + x, are R, G, B and 0xFF of the colour the pixel was packed from (R83, R84). -/
def Obligations.FrameBytesAreRgba : Prop :=
  ∀ (f : FrameBuffer) (x : Fin 640) (y : Fin 400) (c : Rgb),
    (f[y.val])[x.val] = packPixel rgbaLayout c →
      ∀ o : Fin 1024000,
        (o.val = 4 * (y.val * 640 + x.val) → fbByte f o = c.r) ∧
        (o.val = 4 * (y.val * 640 + x.val) + 1 → fbByte f o = c.g) ∧
        (o.val = 4 * (y.val * 640 + x.val) + 2 → fbByte f o = c.b) ∧
        (o.val = 4 * (y.val * 640 + x.val) + 3 → fbByte f o = 0xFF)

/-! ## Reset and what every step keeps -/

/-- The reset values of the table of R201. The clause on the palette names the default palette, which is PRESUMED,
from the spec's general-knowledge default (log 4). -/
def Obligations.ResetValues : Prop :=
  State.reset.status = 0x00000000#32 ∧ State.reset.fontOk = false ∧ State.reset.fault = .none ∧
    State.reset.faulted = false ∧ State.reset.fbValid = false ∧ State.reset.curCol = 0 ∧
    State.reset.curRow = 0 ∧ State.reset.glyphs = none ∧ State.reset.cfg.palette = vgaPalette ∧
    (∀ (x : Fin 640) (y : Fin 400), (State.reset.fb[y.val])[x.val] = 0x00000000#32) ∧
    (∀ a, State.reset.readByte a = 0x00) ∧ State.reset.halted = false

/-- The invariant holds right after reset, whatever the parameters. -/
def Obligations.InvariantAtReset : Prop := ∀ cfg : Config, (State.resetWith cfg).Inv

/-- Every step keeps the invariant: memory in canonical form, the cursor on the grid (R27), FONT_OK exactly
when the glyph table holds a value (R25), no composed frame without a font (R141), the frame buffer at its
reset value until FB_VALID (R28, R32), no frame before startup is complete (R205). -/
def Obligations.StepKeepsTheInvariant : Prop := ∀ s t : State, s.Inv → step s = .next t → t.Inv

/-- The palette is read-only: no step changes any entry of it, or any other parameter (R30). -/
def Obligations.PaletteIsReadOnly : Prop :=
  ∀ s t : State, step s = .next t → t.cfg = s.cfg ∧ ∀ i, paletteEntry t.cfg i = paletteEntry s.cfg i

/-- Only COMPOSE writes the frame buffer: a step that changes it ran a COMPOSE from the port, or is the
COMPOSE of a frame (R32, R153). -/
def Obligations.OnlyComposeWritesTheFrame : Prop :=
  ∀ s t : State, step s = .next t → t.fb ≠ s.fb →
    s.fault = .none ∧
      ((∃ c rest, s.port = c :: rest ∧ decode c.word = .ok .compose) ∨ (s.port = [] ∧ s.phase = .compose))

/-- Only TTYPUT moves the cursor, and only TTYPUT and the boot copy write memory: a step that does ran a
TTYPUT from the port, or the instruction INT 0x10 with AH = 0x0E in step 2 of a frame, or, for memory alone,
boot selection in startup (R27, R62, R121). -/
def Obligations.OnlyTtyputWritesWindowAndCursor : Prop :=
  ∀ s t : State, step s = .next t → (t.mem ≠ s.mem ∨ t.curCol ≠ s.curCol ∨ t.curRow ≠ s.curRow) →
    (∃ c rest b, s.port = c :: rest ∧ decode c.word = .ok (.ttyput b)) ∨
      (s.port = [] ∧ s.phase = .execute ∧ s.ah = 0x0E ∧
        ∃ rest, s.guest = .softInt 0x10 :: rest) ∨
      (s.port = [] ∧ s.phase = .startup ∧ t.curCol = s.curCol ∧ t.curRow = s.curRow ∧
        ∃ ds l rest, s.startup = .boot ds l :: rest)

/-! ## Routing, the frame sequencer, startup -/

/-- A software interrupt issues TTYPUT AL when the vector is 0x10 and AH is 0x0E, with AL and AH bits 7:0 and
15:8 of the accumulator (R120), and otherwise changes nothing at all (R121). -/
def Obligations.VideoInterruptIsTtyput : Prop :=
  ∀ (s : State) (v : Byte), softwareInterrupt v s =
    if v = 0x10 ∧ s.acc.extractLsb' 8 8 = 0x0E then exec (.ttyput (s.acc.setWidth 8)) s else .next s

/-- In step 2 of a frame, a move into AL, AH or the whole accumulator changes just those bits of it, and a halt
just the halted signal: AL is bits 7:0, AH bits 15:8 (R20), and the block, the window and the cursor stay. What
each instruction is, is an input (the model's choice, log 16). -/
def Obligations.GuestMovesAndHalt : Prop :=
  ∀ (s : State) (rest : List GuestAction), s.port = [] → s.phase = .execute →
    (∀ v, s.guest = .moveAl v :: rest →
      ∃ t, step s = .next t ∧ t.al = v ∧ t.acc.extractLsb' 8 24 = s.acc.extractLsb' 8 24 ∧
        t = { s with acc := t.acc, guest := rest, phase := .compose }) ∧
    (∀ v, s.guest = .moveAh v :: rest →
      ∃ t, step s = .next t ∧ t.ah = v ∧ t.al = s.al ∧
        t.acc.extractLsb' 16 16 = s.acc.extractLsb' 16 16 ∧
        t = { s with acc := t.acc, guest := rest, phase := .compose }) ∧
    (∀ v, s.guest = .moveAcc v :: rest →
      step s = .next { s with acc := v, guest := rest, phase := .compose }) ∧
    (s.guest = .hlt :: rest →
      step s = .next { s with halted := true, guest := rest, phase := .compose })

/-- Shutdown is honoured only at the poll of a frame: there a pending event ends the run before any
instruction, COMPOSE or present, and no other step ends a run by shutdown (R156). The list of the polls' answers is
the model's choice (log 15). -/
def Obligations.ShutdownOnlyAtPoll : Prop :=
  (∀ (s : State) (rest : List Bool), s.port = [] → s.phase = .poll → s.polls = true :: rest →
    step s = .next { s with polls := rest, phase := .ended .shutdown }) ∧
  ∀ s t : State, step s = .next t → t.phase = .ended .shutdown → s.phase ≠ .ended .shutdown →
    s.port = [] ∧ s.phase = .poll ∧ s.polls.head? = some true

/-- While the executor is halted and no shutdown comes, every frame n runs, executes no instruction, changes
no memory and no register, and presents the bit-identical frame (R155). Three steps a frame (log 14), and no event
at a poll beyond the list (log 15), are the model's choice. -/
def Obligations.HaltedFramesAreIdentical : Prop :=
  ∀ (s : State) (g : GlyphTable), s.port = [] → s.phase = .poll → s.halted = true → s.fault = .none →
    s.fontOk = true → s.glyphs = some g → (∀ b ∈ s.polls, b = false) →
      ∀ n : Nat, ∃ t, Host.Core.run Sys2Proof.core (3 * (n + 1)) s = .next t ∧
        t.presented = some (rasterize s.cfg s.windowCells g) ∧ t.fb = rasterize s.cfg s.windowCells g ∧
        t.mem = s.mem ∧ t.acc = s.acc ∧ t.curCol = s.curCol ∧ t.curRow = s.curRow ∧ t.guest = s.guest ∧
        t.halted = true ∧ t.phase = .poll

/-- A DecodeError in step 2 ends the run in that frame: FAULT, the frame buffer and the frame the host has
stay (R157). That no COMPOSE or present follows is said by the next step, which faults runEnded: the model's choice
(log 21), as is the list of the executor's instructions (log 16). -/
def Obligations.DecodeErrorEndsTheRun : Prop :=
  ∀ (s : State) (rest : List GuestAction), s.port = [] → s.phase = .execute →
    s.guest = .decodeError :: rest →
      step s = .next { s with guest := rest, phase := .ended .decodeError } ∧
      Host.Core.run Sys2Proof.core 2 s = .fault .runEnded

/-- One frame whose instruction is INT 0x10 with AH = 0x0E: poll, TTYPUT AL, COMPOSE, present; the frame
presented already shows the character (R130, R154). One step for each phase of a frame (log 14) and the list of the
executor's instructions (log 16) are the model's choice. -/
def Obligations.FrameShowsItsOwnTtyput : Prop :=
  ∀ (s : State) (g : GlyphTable) (rest : List GuestAction), s.port = [] → s.phase = .poll →
    s.halted = false → s.polls.head? ≠ some true → s.guest = .softInt 0x10 :: rest → s.ah = 0x0E →
    s.fault = .none → s.fontOk = true → s.glyphs = some g → s.curCol.toNat < 80 → s.curRow.toNat < 25 →
      ∃ t u, exec (.ttyput s.al) s = .next t ∧ Host.Core.run Sys2Proof.core 4 s = .next u ∧
        u.presented = some (rasterize t.cfg t.windowCells g) ∧ u.mem = t.mem ∧ u.curCol = t.curCol ∧
        u.curRow = t.curRow ∧ u.acc = s.acc ∧ u.fbValid = true ∧ u.guest = rest ∧ u.phase = .poll

/-- No frame starts unless startup is complete: a step from startup into a frame happens only with no fault,
the font loaded and boot selection finished; a fault ends the run; a run that ended stays ended (R203,
R205). One step for each phase is the model's choice (log 14). -/
def Obligations.FramesStartOnlyAfterStartup : Prop :=
  (∀ s t : State, step s = .next t → s.phase.inFrame = false → t.phase.inFrame = true →
    s.phase = .startup ∧ s.fault = .none ∧ s.fontOk = true ∧ s.bootDone = true) ∧
  (∀ s : State, s.port = [] → s.phase = .startup → s.fault ≠ .none →
    step s = .next { s with phase := .ended .startupFault }) ∧
  ∀ (s t : State) (why : EndReason), s.phase = .ended why → step s = .next t → t.phase = .ended why

/-- Boot selection copies the first 512 bytes of the first fixed device with the signature 55 AA at offsets 510
and 511 to the boot location, and nothing else changes but that it is finished; with no such device the run ends
before frame 1 (R203 (b)). The devices and the location are inputs (the model's choice, log 18). -/
def Obligations.BootSelectionCopiesTheSector : Prop :=
  ∀ (s : State) (ds : List (List Byte)) (loc : Nat) (rest : List StartupEvent), s.port = [] →
    s.phase = .startup → s.fault = .none → s.bootDone = false → s.startup = .boot ds loc :: rest →
    (∀ (before after : List (List Byte)) (d : List Byte), ds = before ++ d :: after →
      (∀ e ∈ before, ¬(e[510]? = some 0x55#8 ∧ e[511]? = some 0xAA#8)) →
      d[510]? = some 0x55#8 → d[511]? = some 0xAA#8 → loc + 512 ≤ 1048576 →
        ∃ t, step s = .next t ∧ (∀ k, k < 512 → d[k]? = some (t.readByte (loc + k))) ∧
          (∀ a, a < loc ∨ loc + 512 ≤ a → t.readByte a = s.readByte a) ∧
          t = { s with mem := t.mem, bootDone := true, startup := rest }) ∧
    ((∀ e ∈ ds, ¬(e[510]? = some 0x55#8 ∧ e[511]? = some 0xAA#8)) →
      step s = .next { s with startup := rest, phase := .ended .noBootDevice })

/-- Either order of font load and boot selection gives the same state at frame 1 when both succeed; when both
fail, the one performed first is the error reported (R204). The events as an input list (log 17), with the devices
and the boot location in the boot event (log 18), are the model's choice; a font also fails where its MODE byte is
refused (log 7). -/
def Obligations.StartupOrderIsFree : Prop :=
  ∀ (s : State) (l : List Byte) (ds : List (List Byte)) (loc : Nat), s.port = [] → s.phase = .startup →
    s.fault = .none → s.fontOk = false → s.bootDone = false →
    (∀ t, Host.Core.run Sys2Proof.core 3 { s with startup := [.font l, .boot ds loc] } = .next t →
      t.phase = .poll →
        Host.Core.run Sys2Proof.core 3 { s with startup := [.boot ds loc, .font l] } = .next t) ∧
    (∀ t, Host.Core.run Sys2Proof.core 3 { s with startup := [.boot ds loc, .font l] } = .next t →
      t.phase = .poll →
        Host.Core.run Sys2Proof.core 3 { s with startup := [.font l, .boot ds loc] } = .next t) ∧
    ((∀ g, fontVerdict s.cfg false l ≠ .load g) → (∀ d ∈ ds, qualifiesForBoot d = false) →
      (∃ t, Host.Core.run Sys2Proof.core 2 { s with startup := [.font l, .boot ds loc] } = .next t ∧
        t.phase = .ended .startupFault) ∧
      ∃ t, Host.Core.run Sys2Proof.core 1 { s with startup := [.boot ds loc, .font l] } = .next t ∧
        t.phase = .ended .noBootDevice)

/-- Present hands the frame buffer as it stands to the surface and changes nothing of the block (R153). -/
def Obligations.PresentHandsOverTheFrame : Prop :=
  ∀ s : State, s.port = [] → s.phase = .present →
    step s = .next { s with presented := some s.fb, phase := .poll }

/-! ## Assembler -/

/-- PUTS expands to one TTYPUT word per byte, in order and without a terminator; FILL to n copies; the word of
TTYPUT c is 0x02000000 | c (R76, R77). -/
def Obligations.PseudoInstructionWords : Prop :=
  (∀ text : List Byte,
    (expandPuts text).map encode = text.map fun c => 0x02000000#32 ||| c.setWidth 32) ∧
  ∀ (n : Nat) (c : Byte), (expandFill n c).map encode = List.replicate n (0x02000000#32 ||| c.setWidth 32)
end

