-- ==== Sys2Proof/Laws/State.lean ====
section
/-! SUPPORT. One lemma per field per named update of the state. -/

namespace Sys2Proof.Machine

/-! ### setMem -/

@[simp] theorem State.setMem_cfg (s : State) (m : Memory) : (s.setMem m).cfg = s.cfg := rfl
@[simp] theorem State.setMem_fontOk (s : State) (m : Memory) : (s.setMem m).fontOk = s.fontOk := rfl
@[simp] theorem State.setMem_fault (s : State) (m : Memory) : (s.setMem m).fault = s.fault := rfl
@[simp] theorem State.setMem_fbValid (s : State) (m : Memory) : (s.setMem m).fbValid = s.fbValid := rfl
@[simp] theorem State.setMem_curCol (s : State) (m : Memory) : (s.setMem m).curCol = s.curCol := rfl
@[simp] theorem State.setMem_curRow (s : State) (m : Memory) : (s.setMem m).curRow = s.curRow := rfl
@[simp] theorem State.setMem_glyphs (s : State) (m : Memory) : (s.setMem m).glyphs = s.glyphs := rfl
@[simp] theorem State.setMem_fb (s : State) (m : Memory) : (s.setMem m).fb = s.fb := rfl
@[simp] theorem State.setMem_mem (s : State) (m : Memory) : (s.setMem m).mem = m := rfl
@[simp] theorem State.setMem_acc (s : State) (m : Memory) : (s.setMem m).acc = s.acc := rfl
@[simp] theorem State.setMem_halted (s : State) (m : Memory) : (s.setMem m).halted = s.halted := rfl
@[simp] theorem State.setMem_port (s : State) (m : Memory) : (s.setMem m).port = s.port := rfl
@[simp] theorem State.setMem_stream (s : State) (m : Memory) : (s.setMem m).stream = s.stream := rfl
@[simp] theorem State.setMem_phase (s : State) (m : Memory) : (s.setMem m).phase = s.phase := rfl
@[simp] theorem State.setMem_bootDone (s : State) (m : Memory) : (s.setMem m).bootDone = s.bootDone := rfl
@[simp] theorem State.setMem_startup (s : State) (m : Memory) : (s.setMem m).startup = s.startup := rfl
@[simp] theorem State.setMem_polls (s : State) (m : Memory) : (s.setMem m).polls = s.polls := rfl
@[simp] theorem State.setMem_guest (s : State) (m : Memory) : (s.setMem m).guest = s.guest := rfl
@[simp] theorem State.setMem_freeIndex (s : State) (m : Memory) : (s.setMem m).freeIndex = s.freeIndex := rfl
@[simp] theorem State.setMem_presented (s : State) (m : Memory) : (s.setMem m).presented = s.presented := rfl

/-! ### setCursor -/

@[simp] theorem State.setCursor_cfg (s : State) (c r : Nat) : (s.setCursor c r).cfg = s.cfg := rfl
@[simp] theorem State.setCursor_fontOk (s : State) (c r : Nat) : (s.setCursor c r).fontOk = s.fontOk := rfl
@[simp] theorem State.setCursor_fault (s : State) (c r : Nat) : (s.setCursor c r).fault = s.fault := rfl
@[simp] theorem State.setCursor_fbValid (s : State) (c r : Nat) : (s.setCursor c r).fbValid = s.fbValid := rfl
@[simp] theorem State.setCursor_curCol (s : State) (c r : Nat) : (s.setCursor c r).curCol = BitVec.ofNat 8 c := rfl
@[simp] theorem State.setCursor_curRow (s : State) (c r : Nat) : (s.setCursor c r).curRow = BitVec.ofNat 8 r := rfl
@[simp] theorem State.setCursor_glyphs (s : State) (c r : Nat) : (s.setCursor c r).glyphs = s.glyphs := rfl
@[simp] theorem State.setCursor_fb (s : State) (c r : Nat) : (s.setCursor c r).fb = s.fb := rfl
@[simp] theorem State.setCursor_mem (s : State) (c r : Nat) : (s.setCursor c r).mem = s.mem := rfl
@[simp] theorem State.setCursor_acc (s : State) (c r : Nat) : (s.setCursor c r).acc = s.acc := rfl
@[simp] theorem State.setCursor_halted (s : State) (c r : Nat) : (s.setCursor c r).halted = s.halted := rfl
@[simp] theorem State.setCursor_port (s : State) (c r : Nat) : (s.setCursor c r).port = s.port := rfl
@[simp] theorem State.setCursor_stream (s : State) (c r : Nat) : (s.setCursor c r).stream = s.stream := rfl
@[simp] theorem State.setCursor_phase (s : State) (c r : Nat) : (s.setCursor c r).phase = s.phase := rfl
@[simp] theorem State.setCursor_bootDone (s : State) (c r : Nat) : (s.setCursor c r).bootDone = s.bootDone := rfl
@[simp] theorem State.setCursor_startup (s : State) (c r : Nat) : (s.setCursor c r).startup = s.startup := rfl
@[simp] theorem State.setCursor_polls (s : State) (c r : Nat) : (s.setCursor c r).polls = s.polls := rfl
@[simp] theorem State.setCursor_guest (s : State) (c r : Nat) : (s.setCursor c r).guest = s.guest := rfl
@[simp] theorem State.setCursor_freeIndex (s : State) (c r : Nat) : (s.setCursor c r).freeIndex = s.freeIndex := rfl
@[simp] theorem State.setCursor_presented (s : State) (c r : Nat) : (s.setCursor c r).presented = s.presented := rfl

/-! ### setGlyphs -/

@[simp] theorem State.setGlyphs_cfg (s : State) (g : GlyphTable) : (s.setGlyphs g).cfg = s.cfg := rfl
@[simp] theorem State.setGlyphs_fontOk (s : State) (g : GlyphTable) : (s.setGlyphs g).fontOk = true := rfl
@[simp] theorem State.setGlyphs_fault (s : State) (g : GlyphTable) : (s.setGlyphs g).fault = s.fault := rfl
@[simp] theorem State.setGlyphs_fbValid (s : State) (g : GlyphTable) : (s.setGlyphs g).fbValid = s.fbValid := rfl
@[simp] theorem State.setGlyphs_curCol (s : State) (g : GlyphTable) : (s.setGlyphs g).curCol = s.curCol := rfl
@[simp] theorem State.setGlyphs_curRow (s : State) (g : GlyphTable) : (s.setGlyphs g).curRow = s.curRow := rfl
@[simp] theorem State.setGlyphs_glyphs (s : State) (g : GlyphTable) : (s.setGlyphs g).glyphs = some g := rfl
@[simp] theorem State.setGlyphs_fb (s : State) (g : GlyphTable) : (s.setGlyphs g).fb = s.fb := rfl
@[simp] theorem State.setGlyphs_mem (s : State) (g : GlyphTable) : (s.setGlyphs g).mem = s.mem := rfl
@[simp] theorem State.setGlyphs_acc (s : State) (g : GlyphTable) : (s.setGlyphs g).acc = s.acc := rfl
@[simp] theorem State.setGlyphs_halted (s : State) (g : GlyphTable) : (s.setGlyphs g).halted = s.halted := rfl
@[simp] theorem State.setGlyphs_port (s : State) (g : GlyphTable) : (s.setGlyphs g).port = s.port := rfl
@[simp] theorem State.setGlyphs_stream (s : State) (g : GlyphTable) : (s.setGlyphs g).stream = s.stream := rfl
@[simp] theorem State.setGlyphs_phase (s : State) (g : GlyphTable) : (s.setGlyphs g).phase = s.phase := rfl
@[simp] theorem State.setGlyphs_bootDone (s : State) (g : GlyphTable) : (s.setGlyphs g).bootDone = s.bootDone := rfl
@[simp] theorem State.setGlyphs_startup (s : State) (g : GlyphTable) : (s.setGlyphs g).startup = s.startup := rfl
@[simp] theorem State.setGlyphs_polls (s : State) (g : GlyphTable) : (s.setGlyphs g).polls = s.polls := rfl
@[simp] theorem State.setGlyphs_guest (s : State) (g : GlyphTable) : (s.setGlyphs g).guest = s.guest := rfl
@[simp] theorem State.setGlyphs_freeIndex (s : State) (g : GlyphTable) : (s.setGlyphs g).freeIndex = s.freeIndex := rfl
@[simp] theorem State.setGlyphs_presented (s : State) (g : GlyphTable) : (s.setGlyphs g).presented = s.presented := rfl

/-! ### setFrame -/

@[simp] theorem State.setFrame_cfg (s : State) (f : FrameBuffer) : (s.setFrame f).cfg = s.cfg := rfl
@[simp] theorem State.setFrame_fontOk (s : State) (f : FrameBuffer) : (s.setFrame f).fontOk = s.fontOk := rfl
@[simp] theorem State.setFrame_fault (s : State) (f : FrameBuffer) : (s.setFrame f).fault = s.fault := rfl
@[simp] theorem State.setFrame_fbValid (s : State) (f : FrameBuffer) : (s.setFrame f).fbValid = true := rfl
@[simp] theorem State.setFrame_curCol (s : State) (f : FrameBuffer) : (s.setFrame f).curCol = s.curCol := rfl
@[simp] theorem State.setFrame_curRow (s : State) (f : FrameBuffer) : (s.setFrame f).curRow = s.curRow := rfl
@[simp] theorem State.setFrame_glyphs (s : State) (f : FrameBuffer) : (s.setFrame f).glyphs = s.glyphs := rfl
@[simp] theorem State.setFrame_fb (s : State) (f : FrameBuffer) : (s.setFrame f).fb = f := rfl
@[simp] theorem State.setFrame_mem (s : State) (f : FrameBuffer) : (s.setFrame f).mem = s.mem := rfl
@[simp] theorem State.setFrame_acc (s : State) (f : FrameBuffer) : (s.setFrame f).acc = s.acc := rfl
@[simp] theorem State.setFrame_halted (s : State) (f : FrameBuffer) : (s.setFrame f).halted = s.halted := rfl
@[simp] theorem State.setFrame_port (s : State) (f : FrameBuffer) : (s.setFrame f).port = s.port := rfl
@[simp] theorem State.setFrame_stream (s : State) (f : FrameBuffer) : (s.setFrame f).stream = s.stream := rfl
@[simp] theorem State.setFrame_phase (s : State) (f : FrameBuffer) : (s.setFrame f).phase = s.phase := rfl
@[simp] theorem State.setFrame_bootDone (s : State) (f : FrameBuffer) : (s.setFrame f).bootDone = s.bootDone := rfl
@[simp] theorem State.setFrame_startup (s : State) (f : FrameBuffer) : (s.setFrame f).startup = s.startup := rfl
@[simp] theorem State.setFrame_polls (s : State) (f : FrameBuffer) : (s.setFrame f).polls = s.polls := rfl
@[simp] theorem State.setFrame_guest (s : State) (f : FrameBuffer) : (s.setFrame f).guest = s.guest := rfl
@[simp] theorem State.setFrame_freeIndex (s : State) (f : FrameBuffer) : (s.setFrame f).freeIndex = s.freeIndex := rfl
@[simp] theorem State.setFrame_presented (s : State) (f : FrameBuffer) : (s.setFrame f).presented = s.presented := rfl

/-! ### setAcc -/

@[simp] theorem State.setAcc_cfg (s : State) (v : BitVec 32) : (s.setAcc v).cfg = s.cfg := rfl
@[simp] theorem State.setAcc_fontOk (s : State) (v : BitVec 32) : (s.setAcc v).fontOk = s.fontOk := rfl
@[simp] theorem State.setAcc_fault (s : State) (v : BitVec 32) : (s.setAcc v).fault = s.fault := rfl
@[simp] theorem State.setAcc_fbValid (s : State) (v : BitVec 32) : (s.setAcc v).fbValid = s.fbValid := rfl
@[simp] theorem State.setAcc_curCol (s : State) (v : BitVec 32) : (s.setAcc v).curCol = s.curCol := rfl
@[simp] theorem State.setAcc_curRow (s : State) (v : BitVec 32) : (s.setAcc v).curRow = s.curRow := rfl
@[simp] theorem State.setAcc_glyphs (s : State) (v : BitVec 32) : (s.setAcc v).glyphs = s.glyphs := rfl
@[simp] theorem State.setAcc_fb (s : State) (v : BitVec 32) : (s.setAcc v).fb = s.fb := rfl
@[simp] theorem State.setAcc_mem (s : State) (v : BitVec 32) : (s.setAcc v).mem = s.mem := rfl
@[simp] theorem State.setAcc_acc (s : State) (v : BitVec 32) : (s.setAcc v).acc = v := rfl
@[simp] theorem State.setAcc_halted (s : State) (v : BitVec 32) : (s.setAcc v).halted = s.halted := rfl
@[simp] theorem State.setAcc_port (s : State) (v : BitVec 32) : (s.setAcc v).port = s.port := rfl
@[simp] theorem State.setAcc_stream (s : State) (v : BitVec 32) : (s.setAcc v).stream = s.stream := rfl
@[simp] theorem State.setAcc_phase (s : State) (v : BitVec 32) : (s.setAcc v).phase = s.phase := rfl
@[simp] theorem State.setAcc_bootDone (s : State) (v : BitVec 32) : (s.setAcc v).bootDone = s.bootDone := rfl
@[simp] theorem State.setAcc_startup (s : State) (v : BitVec 32) : (s.setAcc v).startup = s.startup := rfl
@[simp] theorem State.setAcc_polls (s : State) (v : BitVec 32) : (s.setAcc v).polls = s.polls := rfl
@[simp] theorem State.setAcc_guest (s : State) (v : BitVec 32) : (s.setAcc v).guest = s.guest := rfl
@[simp] theorem State.setAcc_freeIndex (s : State) (v : BitVec 32) : (s.setAcc v).freeIndex = s.freeIndex := rfl
@[simp] theorem State.setAcc_presented (s : State) (v : BitVec 32) : (s.setAcc v).presented = s.presented := rfl

/-! ### setPhase -/

@[simp] theorem State.setPhase_cfg (s : State) (p : Phase) : (s.setPhase p).cfg = s.cfg := rfl
@[simp] theorem State.setPhase_fontOk (s : State) (p : Phase) : (s.setPhase p).fontOk = s.fontOk := rfl
@[simp] theorem State.setPhase_fault (s : State) (p : Phase) : (s.setPhase p).fault = s.fault := rfl
@[simp] theorem State.setPhase_fbValid (s : State) (p : Phase) : (s.setPhase p).fbValid = s.fbValid := rfl
@[simp] theorem State.setPhase_curCol (s : State) (p : Phase) : (s.setPhase p).curCol = s.curCol := rfl
@[simp] theorem State.setPhase_curRow (s : State) (p : Phase) : (s.setPhase p).curRow = s.curRow := rfl
@[simp] theorem State.setPhase_glyphs (s : State) (p : Phase) : (s.setPhase p).glyphs = s.glyphs := rfl
@[simp] theorem State.setPhase_fb (s : State) (p : Phase) : (s.setPhase p).fb = s.fb := rfl
@[simp] theorem State.setPhase_mem (s : State) (p : Phase) : (s.setPhase p).mem = s.mem := rfl
@[simp] theorem State.setPhase_acc (s : State) (p : Phase) : (s.setPhase p).acc = s.acc := rfl
@[simp] theorem State.setPhase_halted (s : State) (p : Phase) : (s.setPhase p).halted = s.halted := rfl
@[simp] theorem State.setPhase_port (s : State) (p : Phase) : (s.setPhase p).port = s.port := rfl
@[simp] theorem State.setPhase_stream (s : State) (p : Phase) : (s.setPhase p).stream = s.stream := rfl
@[simp] theorem State.setPhase_phase (s : State) (p : Phase) : (s.setPhase p).phase = p := rfl
@[simp] theorem State.setPhase_bootDone (s : State) (p : Phase) : (s.setPhase p).bootDone = s.bootDone := rfl
@[simp] theorem State.setPhase_startup (s : State) (p : Phase) : (s.setPhase p).startup = s.startup := rfl
@[simp] theorem State.setPhase_polls (s : State) (p : Phase) : (s.setPhase p).polls = s.polls := rfl
@[simp] theorem State.setPhase_guest (s : State) (p : Phase) : (s.setPhase p).guest = s.guest := rfl
@[simp] theorem State.setPhase_freeIndex (s : State) (p : Phase) : (s.setPhase p).freeIndex = s.freeIndex := rfl
@[simp] theorem State.setPhase_presented (s : State) (p : Phase) : (s.setPhase p).presented = s.presented := rfl

/-! ### setStream -/

@[simp] theorem State.setStream_cfg (s : State) (l : List Byte) : (s.setStream l).cfg = s.cfg := rfl
@[simp] theorem State.setStream_fontOk (s : State) (l : List Byte) : (s.setStream l).fontOk = s.fontOk := rfl
@[simp] theorem State.setStream_fault (s : State) (l : List Byte) : (s.setStream l).fault = s.fault := rfl
@[simp] theorem State.setStream_fbValid (s : State) (l : List Byte) : (s.setStream l).fbValid = s.fbValid := rfl
@[simp] theorem State.setStream_curCol (s : State) (l : List Byte) : (s.setStream l).curCol = s.curCol := rfl
@[simp] theorem State.setStream_curRow (s : State) (l : List Byte) : (s.setStream l).curRow = s.curRow := rfl
@[simp] theorem State.setStream_glyphs (s : State) (l : List Byte) : (s.setStream l).glyphs = s.glyphs := rfl
@[simp] theorem State.setStream_fb (s : State) (l : List Byte) : (s.setStream l).fb = s.fb := rfl
@[simp] theorem State.setStream_mem (s : State) (l : List Byte) : (s.setStream l).mem = s.mem := rfl
@[simp] theorem State.setStream_acc (s : State) (l : List Byte) : (s.setStream l).acc = s.acc := rfl
@[simp] theorem State.setStream_halted (s : State) (l : List Byte) : (s.setStream l).halted = s.halted := rfl
@[simp] theorem State.setStream_port (s : State) (l : List Byte) : (s.setStream l).port = s.port := rfl
@[simp] theorem State.setStream_stream (s : State) (l : List Byte) : (s.setStream l).stream = l := rfl
@[simp] theorem State.setStream_phase (s : State) (l : List Byte) : (s.setStream l).phase = s.phase := rfl
@[simp] theorem State.setStream_bootDone (s : State) (l : List Byte) : (s.setStream l).bootDone = s.bootDone := rfl
@[simp] theorem State.setStream_startup (s : State) (l : List Byte) : (s.setStream l).startup = s.startup := rfl
@[simp] theorem State.setStream_polls (s : State) (l : List Byte) : (s.setStream l).polls = s.polls := rfl
@[simp] theorem State.setStream_guest (s : State) (l : List Byte) : (s.setStream l).guest = s.guest := rfl
@[simp] theorem State.setStream_freeIndex (s : State) (l : List Byte) : (s.setStream l).freeIndex = s.freeIndex := rfl
@[simp] theorem State.setStream_presented (s : State) (l : List Byte) : (s.setStream l).presented = s.presented := rfl

/-! ### setPort -/

@[simp] theorem State.setPort_cfg (s : State) (l : List Command) : (s.setPort l).cfg = s.cfg := rfl
@[simp] theorem State.setPort_fontOk (s : State) (l : List Command) : (s.setPort l).fontOk = s.fontOk := rfl
@[simp] theorem State.setPort_fault (s : State) (l : List Command) : (s.setPort l).fault = s.fault := rfl
@[simp] theorem State.setPort_fbValid (s : State) (l : List Command) : (s.setPort l).fbValid = s.fbValid := rfl
@[simp] theorem State.setPort_curCol (s : State) (l : List Command) : (s.setPort l).curCol = s.curCol := rfl
@[simp] theorem State.setPort_curRow (s : State) (l : List Command) : (s.setPort l).curRow = s.curRow := rfl
@[simp] theorem State.setPort_glyphs (s : State) (l : List Command) : (s.setPort l).glyphs = s.glyphs := rfl
@[simp] theorem State.setPort_fb (s : State) (l : List Command) : (s.setPort l).fb = s.fb := rfl
@[simp] theorem State.setPort_mem (s : State) (l : List Command) : (s.setPort l).mem = s.mem := rfl
@[simp] theorem State.setPort_acc (s : State) (l : List Command) : (s.setPort l).acc = s.acc := rfl
@[simp] theorem State.setPort_halted (s : State) (l : List Command) : (s.setPort l).halted = s.halted := rfl
@[simp] theorem State.setPort_port (s : State) (l : List Command) : (s.setPort l).port = l := rfl
@[simp] theorem State.setPort_stream (s : State) (l : List Command) : (s.setPort l).stream = s.stream := rfl
@[simp] theorem State.setPort_phase (s : State) (l : List Command) : (s.setPort l).phase = s.phase := rfl
@[simp] theorem State.setPort_bootDone (s : State) (l : List Command) : (s.setPort l).bootDone = s.bootDone := rfl
@[simp] theorem State.setPort_startup (s : State) (l : List Command) : (s.setPort l).startup = s.startup := rfl
@[simp] theorem State.setPort_polls (s : State) (l : List Command) : (s.setPort l).polls = s.polls := rfl
@[simp] theorem State.setPort_guest (s : State) (l : List Command) : (s.setPort l).guest = s.guest := rfl
@[simp] theorem State.setPort_freeIndex (s : State) (l : List Command) : (s.setPort l).freeIndex = s.freeIndex := rfl
@[simp] theorem State.setPort_presented (s : State) (l : List Command) : (s.setPort l).presented = s.presented := rfl

/-! ### raiseFault -/

@[simp] theorem State.raiseFault_cfg (s : State) (k : FaultCode) : (s.raiseFault k).cfg = s.cfg := rfl
@[simp] theorem State.raiseFault_fontOk (s : State) (k : FaultCode) : (s.raiseFault k).fontOk = s.fontOk := rfl
@[simp] theorem State.raiseFault_fault (s : State) (k : FaultCode) : (s.raiseFault k).fault = k := rfl
@[simp] theorem State.raiseFault_fbValid (s : State) (k : FaultCode) : (s.raiseFault k).fbValid = s.fbValid := rfl
@[simp] theorem State.raiseFault_curCol (s : State) (k : FaultCode) : (s.raiseFault k).curCol = s.curCol := rfl
@[simp] theorem State.raiseFault_curRow (s : State) (k : FaultCode) : (s.raiseFault k).curRow = s.curRow := rfl
@[simp] theorem State.raiseFault_glyphs (s : State) (k : FaultCode) : (s.raiseFault k).glyphs = s.glyphs := rfl
@[simp] theorem State.raiseFault_fb (s : State) (k : FaultCode) : (s.raiseFault k).fb = s.fb := rfl
@[simp] theorem State.raiseFault_mem (s : State) (k : FaultCode) : (s.raiseFault k).mem = s.mem := rfl
@[simp] theorem State.raiseFault_acc (s : State) (k : FaultCode) : (s.raiseFault k).acc = s.acc := rfl
@[simp] theorem State.raiseFault_halted (s : State) (k : FaultCode) : (s.raiseFault k).halted = s.halted := rfl
@[simp] theorem State.raiseFault_port (s : State) (k : FaultCode) : (s.raiseFault k).port = s.port := rfl
@[simp] theorem State.raiseFault_stream (s : State) (k : FaultCode) : (s.raiseFault k).stream = s.stream := rfl
@[simp] theorem State.raiseFault_phase (s : State) (k : FaultCode) : (s.raiseFault k).phase = s.phase := rfl
@[simp] theorem State.raiseFault_bootDone (s : State) (k : FaultCode) : (s.raiseFault k).bootDone = s.bootDone := rfl
@[simp] theorem State.raiseFault_startup (s : State) (k : FaultCode) : (s.raiseFault k).startup = s.startup := rfl
@[simp] theorem State.raiseFault_polls (s : State) (k : FaultCode) : (s.raiseFault k).polls = s.polls := rfl
@[simp] theorem State.raiseFault_guest (s : State) (k : FaultCode) : (s.raiseFault k).guest = s.guest := rfl
@[simp] theorem State.raiseFault_freeIndex (s : State) (k : FaultCode) : (s.raiseFault k).freeIndex = s.freeIndex := rfl
@[simp] theorem State.raiseFault_presented (s : State) (k : FaultCode) : (s.raiseFault k).presented = s.presented := rfl

/-! ### raiseUnsupportedFont -/

@[simp] theorem State.raiseUnsupportedFont_fault (s : State) :
    s.raiseUnsupportedFont.fault = unsupportedFontFault s.freeIndex := rfl
@[simp] theorem State.raiseUnsupportedFont_freeIndex (s : State) :
    s.raiseUnsupportedFont.freeIndex = s.freeIndex + 1 := rfl
@[simp] theorem State.raiseUnsupportedFont_cfg (s : State) : s.raiseUnsupportedFont.cfg = s.cfg := rfl
@[simp] theorem State.raiseUnsupportedFont_fontOk (s : State) : s.raiseUnsupportedFont.fontOk = s.fontOk := rfl
@[simp] theorem State.raiseUnsupportedFont_fbValid (s : State) : s.raiseUnsupportedFont.fbValid = s.fbValid := rfl
@[simp] theorem State.raiseUnsupportedFont_curCol (s : State) : s.raiseUnsupportedFont.curCol = s.curCol := rfl
@[simp] theorem State.raiseUnsupportedFont_curRow (s : State) : s.raiseUnsupportedFont.curRow = s.curRow := rfl
@[simp] theorem State.raiseUnsupportedFont_glyphs (s : State) : s.raiseUnsupportedFont.glyphs = s.glyphs := rfl
@[simp] theorem State.raiseUnsupportedFont_fb (s : State) : s.raiseUnsupportedFont.fb = s.fb := rfl
@[simp] theorem State.raiseUnsupportedFont_mem (s : State) : s.raiseUnsupportedFont.mem = s.mem := rfl
@[simp] theorem State.raiseUnsupportedFont_acc (s : State) : s.raiseUnsupportedFont.acc = s.acc := rfl
@[simp] theorem State.raiseUnsupportedFont_halted (s : State) : s.raiseUnsupportedFont.halted = s.halted := rfl
@[simp] theorem State.raiseUnsupportedFont_port (s : State) : s.raiseUnsupportedFont.port = s.port := rfl
@[simp] theorem State.raiseUnsupportedFont_stream (s : State) : s.raiseUnsupportedFont.stream = s.stream := rfl
@[simp] theorem State.raiseUnsupportedFont_phase (s : State) : s.raiseUnsupportedFont.phase = s.phase := rfl
@[simp] theorem State.raiseUnsupportedFont_bootDone (s : State) : s.raiseUnsupportedFont.bootDone = s.bootDone := rfl
@[simp] theorem State.raiseUnsupportedFont_startup (s : State) : s.raiseUnsupportedFont.startup = s.startup := rfl
@[simp] theorem State.raiseUnsupportedFont_polls (s : State) : s.raiseUnsupportedFont.polls = s.polls := rfl
@[simp] theorem State.raiseUnsupportedFont_guest (s : State) : s.raiseUnsupportedFont.guest = s.guest := rfl
@[simp] theorem State.raiseUnsupportedFont_presented (s : State) :
    s.raiseUnsupportedFont.presented = s.presented := rfl

end Sys2Proof.Machine
end

