-- ==== Sys2Proof/Laws/Operands.lean ====
section
/-! SUPPORT. The laws of the operand helpers and of raising a fault. -/

namespace Sys2Proof.Machine

@[simp] theorem getElem_tabulate {α : Type} {n : Nat} (f : Fin n → α) (i : Nat) (h : i < n) :
    (tabulate f)[i] = f ⟨i, h⟩ := by simp [tabulate]

/-- Lane gx of an expanded glyph row is the colour its own bit selects (42_compose.md R144). -/
@[simp] theorem getElem_expand (l : Bool) (b : Byte) (F B : Pixel) (gx : Nat) (h : gx < 8) :
    (expand l b F B)[gx] = if laneBit l b gx then F else B := by simp [expand]

@[simp] theorem laneBit_msbLeft (b : Byte) (gx : Nat) : laneBit true b gx = b.getLsbD (7 - gx) := rfl

theorem cursorLegal_iff (s : State) : s.cursorLegal = true ↔ s.curCol.toNat < 80 ∧ s.curRow.toNat < 25 := by
  simp [State.cursorLegal]

/-- Both bytes of a cell of the grid lie in the window (20_memory.md R63). -/
theorem cellAddress_in_window (cfg : Config) {col row : Nat} (hc : col < 80) (hr : row < 25) :
    cfg.videoBase.val ≤ cellAddress cfg (cellIndex col row) ∧
      cellAddress cfg (cellIndex col row) + 1 < cfg.videoBase.val + 4000 := by
  unfold cellAddress cellIndex; omega

/-- The window lies in PhysicalMemory (00_scope.md R7). -/
theorem window_in_memory (cfg : Config) : cfg.videoBase.val + 4000 ≤ 1048576 := by
  have := cfg.videoBase.isLt; omega

@[simp] theorem faulted_eq_false_iff (s : State) : s.faulted = false ↔ s.fault = .none := by
  simp [State.faulted]

theorem faulted_eq_true_iff (s : State) : s.faulted = true ↔ s.fault ≠ .none := by simp [State.faulted]

theorem unlessQuiescent_of_none {s : State} (f : State → Host.Outcome State Fault Refusal)
    (h : s.fault = .none) : unlessQuiescent s f = f s := by simp [unlessQuiescent, State.faulted, h]

theorem unlessQuiescent_of_fault {s : State} (f : State → Host.Outcome State Fault Refusal)
    (h : s.fault ≠ .none) : unlessQuiescent s f = .next s := by simp [unlessQuiescent, State.faulted, h]

/-- What a command below the quiescent check can answer: nothing happens to a quiescent block, and an active
one runs it. -/
theorem unlessQuiescent_cases {s t : State} {f : State → Host.Outcome State Fault Refusal}
    (h : unlessQuiescent s f = .next t) : (s.fault ≠ .none ∧ t = s) ∨ (s.fault = .none ∧ f s = .next t) := by
  by_cases hs : s.fault = .none
  · rw [unlessQuiescent_of_none f hs] at h; exact .inr ⟨hs, h⟩
  · rw [unlessQuiescent_of_fault f hs] at h; cases h; exact .inl ⟨hs, rfl⟩

end Sys2Proof.Machine
end

