-- ==== Sys2Proof/Laws/Compose.lean ====
section
/-! SUPPORT. What COMPOSE paints and what it can do. -/

namespace Sys2Proof.Machine

@[simp] theorem getElem_windowCells (s : State) (i : Nat) (h : i < 2000) :
    s.windowCells[i] = s.fetchCell i := by simp [State.windowCells]

/-- Pixel (x, y) of a composed frame. -/
theorem getElem_rasterize (cfg : Config) (w : Vector Cell 2000) (g : GlyphTable) (x y : Nat) (hx : x < 640)
    (hy : y < 400) : (rasterize cfg w g)[y][x] = pixelOf cfg w g ⟨x, hx⟩ ⟨y, hy⟩ := by simp [rasterize]

/-- The pixel at (x, y) of a composed window is the colour its glyph bit selects (42_compose.md R147). -/
theorem pixelOf_windowCells (s : State) (g : GlyphTable) (x : Fin 640) (y : Fin 400) :
    pixelOf s.cfg s.windowCells g x y =
      if laneBit s.cfg.glyphMsbLeft
          (glyphRow g (s.fetchCell (cellIndex (x / 8) (y / 16))).char ⟨y % 16, by omega⟩) (x % 8) then
        paletteEntry s.cfg (fgIndex (s.fetchCell (cellIndex (x / 8) (y / 16))).attr)
      else paletteEntry s.cfg (bgIndex (s.fetchCell (cellIndex (x / 8) (y / 16))).attr) := by
  simp [pixelOf]

theorem composeFrame_of_font {s : State} {g : GlyphTable} (hf : s.fontOk = true) (hg : s.glyphs = some g) :
    composeFrame s = .next (s.setFrame (rasterize s.cfg s.windowCells g)) := by simp [composeFrame, hf, hg]

/-- Everything COMPOSE can do to an active block: raise CMD_NOT_READY, or paint the frame. -/
theorem composeFrame_cases {s t : State} (h : composeFrame s = .next t) :
    (s.fontOk = false ∧ t = s.raiseFault .cmdNotReady) ∨
      ∃ g, s.fontOk = true ∧ s.glyphs = some g ∧ t = s.setFrame (rasterize s.cfg s.windowCells g) := by
  unfold composeFrame at h
  split at h
  · split at h
    · rename_i hf _ g hg; cases h; exact .inr ⟨g, hf, hg, rfl⟩
    · cases h
  · rename_i hf; cases h; exact .inl ⟨by simpa using hf, rfl⟩

end Sys2Proof.Machine
end

