-- ==== Sys2Proof/Laws/FontLoad.lean ====
section
/-! SUPPORT. What FONTLOAD can do. -/

namespace Sys2Proof.Machine

/-- Row r of glyph c is byte 16c + r of the stream's glyph part. -/
theorem getElem_glyphsOf (l : List Byte) (h : 4096 ≤ l.length) (c r : Nat) (hc : c < 256) (hr : r < 16) :
    (glyphsOf l h)[c][r] = l[16 * c + r]'(by omega) := by simp [glyphsOf]

/-- The table depends on the first 4096 bytes only. -/
theorem glyphsOf_append (l extra : List Byte) (h : 4096 ≤ l.length) :
    glyphsOf (l ++ extra) (by simp; omega) = glyphsOf l h := by
  refine Vector.ext fun c hc => Vector.ext fun r hr => ?_
  rw [getElem_glyphsOf _ _ _ _ hc hr, getElem_glyphsOf _ _ _ _ hc hr, List.getElem_append_left]

theorem fontVerdict_reload (cfg : Config) (l : List Byte) :
    fontVerdict cfg true l = .raise .cmdFontReload := by simp [fontVerdict]

/-- A font with a good header, an accepted MODE byte and 256 glyphs loads. -/
theorem fontVerdict_load (cfg : Config) (mode : Byte) (l : List Byte) (hm : mode ∉ cfg.fontModesRefused)
    (h : 4096 ≤ l.length) :
    fontVerdict cfg false (0x36 :: 0x04 :: mode :: 0x10 :: l) = .load (glyphsOf l h) := by
  simp [fontVerdict, hm, h]

/-- A font with a good header whose MODE byte is refused is unsupported. -/
theorem fontVerdict_unsupported (cfg : Config) (mode : Byte) (l : List Byte) (hm : mode ∈ cfg.fontModesRefused) :
    fontVerdict cfg false (0x36 :: 0x04 :: mode :: 0x10 :: l) = .unsupported := by
  simp [fontVerdict, hm]

/-- A font is unsupported only where the parameter refuses some MODE byte. -/
theorem modes_refused_of_unsupported {cfg : Config} {b : Bool} {l : List Byte}
    (h : fontVerdict cfg b l = .unsupported) : b = false ∧ cfg.fontModesRefused ≠ [] := by
  cases b
  · refine ⟨rfl, fun he => ?_⟩
    unfold fontVerdict at h
    simp only [he, List.not_mem_nil, if_false, Bool.false_eq_true] at h
    repeat' split at h
    all_goals cases h
  · rw [fontVerdict_reload] at h; cases h

/-- Whatever the free value, the fault of an unsupported font is one of the five font faults. -/
theorem unsupportedFontFault_mem (n : Nat) : unsupportedFontFault n ∈
    [FaultCode.fontMissing, .fontShortHeader, .fontBadMagic, .fontBadHeight, .fontShortGlyphs] :=
  (by decide : ∀ i : Fin 5, fontFaults[i] ∈
    [FaultCode.fontMissing, .fontShortHeader, .fontBadMagic, .fontBadHeight, .fontShortGlyphs]) _

theorem unsupportedFontFault_ne_none (n : Nat) : unsupportedFontFault n ≠ .none :=
  (by decide : ∀ i : Fin 5, fontFaults[i] ≠ .none) _

/-- Every fault FONTLOAD raises has a code of its own. -/
theorem fontVerdict_raise_ne_none {cfg : Config} {b : Bool} {l : List Byte} {k : FaultCode}
    (h : fontVerdict cfg b l = .raise k) : k ≠ .none := by
  rintro rfl
  unfold fontVerdict at h
  split at h
  · cases h
  · split at h
    · cases h
    · split at h
      · cases h
      · split at h
        · cases h
        · split at h
          · cases h
          · split at h <;> cases h
    · cases h

theorem loadFont_of_raise {s : State} {k : FaultCode} (h : fontVerdict s.cfg s.fontOk s.stream = .raise k) :
    loadFont s = .next (s.raiseFault k) := by simp [loadFont, h]

theorem loadFont_of_load {s : State} {g : GlyphTable} (h : fontVerdict s.cfg s.fontOk s.stream = .load g) :
    loadFont s = .next (s.setGlyphs g) := by simp [loadFont, h]

theorem loadFont_of_unsupported {s : State} (h : fontVerdict s.cfg s.fontOk s.stream = .unsupported) :
    loadFont s = .next s.raiseUnsupportedFont := by simp [loadFont, h]

/-- FONTLOAD completes on every stream. -/
theorem loadFont_next (s : State) : ∃ t, loadFont s = .next t := by
  unfold loadFont
  split <;> exact ⟨_, rfl⟩

/-- Everything FONTLOAD can do to an active block: raise a fault, find the font unsupported, or load a table
once. -/
theorem loadFont_cases {s t : State} (h : loadFont s = .next t) :
    (∃ k, fontVerdict s.cfg s.fontOk s.stream = .raise k ∧ t = s.raiseFault k) ∨
      (fontVerdict s.cfg s.fontOk s.stream = .unsupported ∧ t = s.raiseUnsupportedFont) ∨
      ∃ g, s.fontOk = false ∧ fontVerdict s.cfg s.fontOk s.stream = .load g ∧ t = s.setGlyphs g := by
  unfold loadFont at h
  split at h
  · rename_i k hk; cases h; exact .inl ⟨k, hk, rfl⟩
  · cases h; exact .inr (.inl ⟨‹_›, rfl⟩)
  · rename_i g hg
    cases h
    refine .inr (.inr ⟨g, ?_, hg, rfl⟩)
    cases hf : s.fontOk
    · rfl
    · rw [hf, fontVerdict_reload] at hg; cases hg

end Sys2Proof.Machine
end

