-- ==== Sys2Proof/Laws/Memory.lean ====
section
/-! SUPPORT. The laws of PhysicalMemory: what a read gives after a write, that every operation keeps the
canonical form, and that the form is canonical. -/

namespace Sys2Proof.Machine

@[simp] theorem Memory.read_nil (a : Nat) : Memory.read [] a = Memory.blank := rfl

theorem Memory.read_cons (b : Nat) (v : Byte) (m : Memory) (a : Nat) :
    Memory.read ((b, v) :: m) a = if b = a then v else Memory.read m a := rfl

theorem Memory.read_insert (m : Memory) (a b : Nat) (v : Byte) :
    (m.insert a v).read b = if a = b then v else m.read b := by
  induction m with
  | nil => simp [Memory.insert, Memory.read_cons]
  | cons c m ih =>
    obtain ⟨d, w⟩ := c
    simp only [Memory.insert]
    split
    · simp [Memory.read_cons]
    · split
      · rename_i had; subst had; by_cases h : a = b <;> simp [Memory.read_cons, h]
      · by_cases h : d = b
        · subst h; simp [Memory.read_cons, *]
        · simp [Memory.read_cons, h, ih]

theorem Memory.read_erase (m : Memory) (a b : Nat) :
    (m.erase a).read b = if a = b then Memory.blank else m.read b := by
  induction m with
  | nil => simp [Memory.erase]
  | cons c m ih =>
    obtain ⟨d, w⟩ := c
    rw [Memory.erase] at ih
    by_cases hd : d = a
    · subst hd
      simp only [Memory.erase, List.filter_cons, ne_eq, not_true_eq_false, decide_false,
        Bool.false_eq_true, if_false, ih]
      by_cases h : d = b <;> simp [Memory.read_cons, h]
    · simp only [Memory.erase, List.filter_cons, ne_eq, hd, not_false_eq_true, decide_true, if_true,
        Memory.read_cons, ih]
      by_cases h : d = b
      · subst h; simp [Ne.symm hd]
      · simp [h]

/-- A read sees the latest write to its byte and no other (20_memory.md R57). -/
theorem Memory.read_write (m : Memory) (a b : Nat) (v : Byte) :
    (m.write a v).read b = if a = b then v else m.read b := by
  unfold Memory.write
  split
  · subst_vars; exact Memory.read_erase m a b
  · exact Memory.read_insert m a b v

@[simp] theorem Memory.read_write_same (m : Memory) (a : Nat) (v : Byte) : (m.write a v).read a = v := by
  simp [Memory.read_write]

theorem Memory.read_write_other (m : Memory) {a b : Nat} (v : Byte) (h : a ≠ b) :
    (m.write a v).read b = m.read b := by simp [Memory.read_write, h]

theorem Memory.read_writeBytes_outside (vs : List Byte) (m : Memory) (a b : Nat)
    (h : b < a ∨ a + vs.length ≤ b) : (m.writeBytes a vs).read b = m.read b := by
  induction vs generalizing m a with
  | nil => rfl
  | cons v vs ih =>
    simp only [List.length_cons] at h
    rw [Memory.writeBytes, ih _ _ (by omega), Memory.read_write_other _ _ (by omega)]

theorem Memory.read_writeBytes_inside (vs : List Byte) (m : Memory) (a k : Nat) (h : k < vs.length) :
    (m.writeBytes a vs).read (a + k) = vs[k] := by
  induction vs generalizing m a k with
  | nil => simp at h
  | cons v vs ih =>
    rw [Memory.writeBytes]
    cases k with
    | zero => rw [Memory.read_writeBytes_outside _ _ _ _ (by omega)]; simp
    | succ k =>
      have := ih (m.write a v) (a + 1) k (by simpa using h)
      rw [show a + (k + 1) = a + 1 + k by omega, this]; simp

/-! ## The canonical form -/

theorem Memory.wf_nil : Memory.wf [] := by simp [Memory.wf]

theorem Memory.wf_tail {c : Host.Cell} {m : Memory} (h : Memory.wf (c :: m)) : Memory.wf m :=
  ⟨(List.pairwise_cons.1 h.1).2, fun d hd => h.2 d (List.mem_cons_of_mem _ hd)⟩

theorem Memory.mem_insert {m : Memory} {a : Nat} {v : Byte} {c : Host.Cell} (h : c ∈ m.insert a v) :
    c = (a, v) ∨ c ∈ m := by
  induction m with
  | nil => simpa [Memory.insert] using h
  | cons d m ih =>
    obtain ⟨b, w⟩ := d
    simp only [Memory.insert] at h
    split at h
    · simpa using h
    · split at h
      · rcases List.mem_cons.1 h with h | h
        · exact .inl h
        · exact .inr (List.mem_cons_of_mem _ h)
      · rcases List.mem_cons.1 h with h | h
        · exact .inr (h ▸ List.mem_cons_self ..)
        · exact (ih h).imp_right (List.mem_cons_of_mem _)

theorem Memory.insert_wf {m : Memory} (h : m.wf) {a : Nat} {v : Byte} (ha : a < memSize)
    (hv : v ≠ Memory.blank) : (m.insert a v).wf := by
  refine ⟨?_, fun c hc => ?_⟩
  · induction m with
    | nil => simp [Memory.insert]
    | cons d m ih =>
      obtain ⟨b, w⟩ := d
      have hp := List.pairwise_cons.1 h.1
      simp only [Memory.insert]
      split
      · refine List.pairwise_cons.2 ⟨fun c hc => ?_, h.1⟩
        rcases List.mem_cons.1 hc with rfl | hc
        · assumption
        · have := hp.1 c hc; simp only at this ⊢; omega
      · split
        · subst_vars; exact List.pairwise_cons.2 ⟨fun c hc => hp.1 c hc, hp.2⟩
        · refine List.pairwise_cons.2 ⟨fun c hc => ?_, ih (Memory.wf_tail h)⟩
          rcases Memory.mem_insert hc with rfl | hc
          · simp only; omega
          · exact hp.1 c hc
  · rcases Memory.mem_insert hc with rfl | hc
    · exact ⟨ha, hv⟩
    · exact h.2 c hc

theorem Memory.erase_wf {m : Memory} (h : m.wf) (a : Nat) : (m.erase a).wf :=
  ⟨h.1.filter _, fun c hc => h.2 c (List.mem_filter.1 hc).1⟩

/-- Every write inside PhysicalMemory keeps the canonical form. -/
theorem Memory.write_wf {m : Memory} (h : m.wf) {a : Nat} (ha : a < memSize) (v : Byte) :
    (m.write a v).wf := by
  unfold Memory.write
  split
  · exact Memory.erase_wf h a
  · exact Memory.insert_wf h ha ‹_›

theorem Memory.writeBytes_wf (vs : List Byte) {m : Memory} (h : m.wf) {a : Nat}
    (ha : a + vs.length ≤ memSize) : (m.writeBytes a vs).wf := by
  induction vs generalizing m a with
  | nil => exact h
  | cons v vs ih =>
    simp only [List.length_cons] at ha
    exact ih (Memory.write_wf h (by omega) v) (by omega)

theorem Memory.read_eq_blank_of_lt {m : Memory} {a : Nat} (h : ∀ c ∈ m, a < c.1) :
    m.read a = Memory.blank := by
  induction m with
  | nil => rfl
  | cons c m ih =>
    obtain ⟨b, w⟩ := c
    have hb : a < b := h (b, w) (List.mem_cons_self ..)
    rw [Memory.read_cons, if_neg (by omega), ih fun c hc => h c (List.mem_cons_of_mem _ hc)]

/-- In a canonical memory a listed pair is what its address reads as. -/
theorem Memory.read_of_mem {m : Memory} (h : m.wf) {c : Host.Cell} (hc : c ∈ m) : m.read c.1 = c.2 := by
  induction m with
  | nil => cases hc
  | cons d m ih =>
    obtain ⟨b, w⟩ := d
    rcases List.mem_cons.1 hc with rfl | hc
    · simp [Memory.read_cons]
    · have := (List.pairwise_cons.1 h.1).1 c hc
      rw [Memory.read_cons, if_neg (by simp only at this; omega), ih (Memory.wf_tail h) hc]

/-- A canonical memory that lists a byte does not read as blank there. -/
theorem Memory.read_ne_blank_of_mem {m : Memory} (h : m.wf) {c : Host.Cell} (hc : c ∈ m) :
    m.read c.1 ≠ Memory.blank := by
  rw [Memory.read_of_mem h hc]; exact (h.2 c hc).2

/-- The form is canonical: two memories in it that read the same are the same list. -/
theorem Memory.ext_of_read {m n : Memory} (hm : m.wf) (hn : n.wf) (h : ∀ a, m.read a = n.read a) : m = n := by
  induction m generalizing n with
  | nil =>
    cases n with
    | nil => rfl
    | cons c n => exact absurd (h c.1).symm (Memory.read_ne_blank_of_mem hn (List.mem_cons_self ..))
  | cons c m ih =>
    cases n with
    | nil => exact absurd (h c.1) (Memory.read_ne_blank_of_mem hm (List.mem_cons_self ..))
    | cons d n =>
      have hmp := List.pairwise_cons.1 hm.1
      have hnp := List.pairwise_cons.1 hn.1
      have hcd : c.1 = d.1 := by
        rcases Nat.lt_trichotomy c.1 d.1 with hlt | heq | hgt
        · refine absurd ((h c.1).trans ?_) (Memory.read_ne_blank_of_mem hm (List.mem_cons_self ..))
          refine Memory.read_eq_blank_of_lt fun e he => ?_
          rcases List.mem_cons.1 he with rfl | he
          · exact hlt
          · exact hlt.trans (hnp.1 e he)
        · exact heq
        · refine absurd ((h d.1).symm.trans ?_) (Memory.read_ne_blank_of_mem hn (List.mem_cons_self ..))
          refine Memory.read_eq_blank_of_lt fun e he => ?_
          rcases List.mem_cons.1 he with rfl | he
          · exact hgt
          · exact hgt.trans (hmp.1 e he)
      have hv : c.2 = d.2 := by
        rw [← Memory.read_of_mem hm (List.mem_cons_self ..), ← Memory.read_of_mem hn (List.mem_cons_self ..), h,
          hcd]
      have hc : c = d := Prod.ext hcd hv
      subst hc
      refine congrArg _ (ih (Memory.wf_tail hm) (Memory.wf_tail hn) fun a => ?_)
      have ha := h a
      obtain ⟨b, w⟩ := c
      rw [Memory.read_cons, Memory.read_cons] at ha
      by_cases hb : b = a
      · subst hb
        rw [Memory.read_eq_blank_of_lt hmp.1, Memory.read_eq_blank_of_lt hnp.1]
      · simpa [hb] using ha

end Sys2Proof.Machine
end

