-- ==== Sys2Proof/Laws/PerInstr.lean ====
section
/-! SUPPORT. A statement about the encoding of every command, one lemma per constructor. -/

namespace Sys2Proof.Laws.EncodesToItsRow

/-- The command's word fits just the row of the opcode table that stands at the command's place (30_encoding.md
R71), and its OP field is the row's selector, 1 more than the place. -/
def Statement (i : Instr) : Prop :=
  let place := match i with
    | .fontload => 0
    | .ttyput _ => 1
    | .compose => 2
  (opField (encode i)).toNat = place + 1 ∧
    ∀ (k : Nat) (r : OpcodeRow), opcodeTable[k]? = some r → (r.fits (encode i) = true ↔ k = place)

theorem fontload : Statement .fontload := by
  refine ⟨by decide, fun k r h => ?_⟩
  match k with
  | 0 => cases h; decide
  | 1 => cases h; decide
  | 2 => cases h; decide
  | k + 3 => simp [opcodeTable] at h

/-- The one lemma about an open operand: its word under a mask, for every value of the operand. -/
theorem ttyput (c : Byte) : Statement (.ttyput c) := by
  refine ⟨?_, fun k r h => ?_⟩
  · revert c; decide
  · match k with
    | 0 => cases h; revert c; decide
    | 1 => cases h; revert c; decide
    | 2 => cases h; revert c; decide
    | k + 3 => simp [opcodeTable] at h

theorem compose : Statement .compose := by
  refine ⟨by decide, fun k r h => ?_⟩
  match k with
  | 0 => cases h; decide
  | 1 => cases h; decide
  | 2 => cases h; decide
  | k + 3 => simp [opcodeTable] at h

end Sys2Proof.Laws.EncodesToItsRow
end

