-- ==== Sys2Proof/Laws/Teletype.lean ====
section
/-! SUPPORT. What TTYPUT and its scroll do to memory and the cursor. -/

namespace Sys2Proof.Machine

theorem read_writeCell (m : Memory) (a : Nat) (c : Cell) (b : Nat) :
    (writeCell m a c).read b = if b = a then c.char else if b = a + 1 then c.attr else m.read b := by
  unfold writeCell
  rw [Memory.read_write, Memory.read_write]
  by_cases h : b = a
  · subst h; simp
  · by_cases h' : b = a + 1
    · subst h'; simp
    · simp [h, h', Ne.symm h, Ne.symm h']

theorem writeCell_wf {m : Memory} (h : m.wf) {a : Nat} (ha : a + 1 < memSize) (c : Cell) :
    (writeCell m a c).wf :=
  Memory.write_wf (Memory.write_wf h (by omega) _) ha _

/-- An address the move brings a byte to comes from a listed byte of the old memory. -/
theorem movedUp_eq_some {base : Nat} {c d : Host.Cell} (h : movedUp base c = some d) :
    d.2 = c.2 ∧ ((d.1 = c.1 ∧ (c.1 < base ∨ base + 4000 ≤ c.1)) ∨
      (d.1 + 160 = c.1 ∧ base ≤ d.1 ∧ c.1 < base + 4000)) := by
  unfold movedUp at h
  simp only [windowBytes, rowBytes] at h
  split at h
  · rename_i hc
    have := Option.some.inj h
    subst this; exact ⟨rfl, .inl ⟨rfl, hc⟩⟩
  · split at h
    · cases h
    · have := Option.some.inj h
      subst this; exact ⟨rfl, .inr ⟨by simp only; omega, by simp only; omega, by omega⟩⟩

/-- The bytes the move drops are those of row 0. -/
theorem movedUp_eq_none {base : Nat} {c : Host.Cell} (h : movedUp base c = none) :
    base ≤ c.1 ∧ c.1 < base + 160 := by
  unfold movedUp at h
  simp only [windowBytes, rowBytes] at h
  split at h
  · cases h
  · split at h
    · omega
    · cases h

theorem read_scrollRows_cons (base : Nat) (c : Host.Cell) (m : Memory) (a : Nat) :
    (scrollRows base (c :: m)).read a =
      match movedUp base c with
      | none => (scrollRows base m).read a
      | some d => if d.1 = a then d.2 else (scrollRows base m).read a := by
  unfold scrollRows
  rw [List.filterMap_cons]
  cases movedUp base c <;> rfl

theorem read_scrollRows_outside (base : Nat) (m : Memory) (a : Nat) (h : a < base ∨ base + 4000 ≤ a) :
    (scrollRows base m).read a = m.read a := by
  induction m with
  | nil => rfl
  | cons c m ih =>
    rw [read_scrollRows_cons, Memory.read_cons, ih]
    cases hc : movedUp base c with
    | none => have := movedUp_eq_none hc; rw [if_neg (by omega)]
    | some d =>
      have hd := movedUp_eq_some hc
      simp only [hd.1]
      by_cases h' : d.1 = a
      · rw [if_pos h', if_pos (by omega)]
      · rw [if_neg h', if_neg (by omega)]

theorem read_scrollRows_moved (base : Nat) (m : Memory) (k : Nat) (h : k < 3840) :
    (scrollRows base m).read (base + k) = m.read (base + k + 160) := by
  induction m with
  | nil => rfl
  | cons c m ih =>
    rw [read_scrollRows_cons, Memory.read_cons, ih]
    cases hc : movedUp base c with
    | none => have := movedUp_eq_none hc; rw [if_neg (by omega)]
    | some d =>
      have hd := movedUp_eq_some hc
      simp only [hd.1]
      by_cases h' : d.1 = base + k
      · rw [if_pos h', if_pos (by omega)]
      · rw [if_neg h', if_neg (by omega)]

theorem scrollRows_wf {m : Memory} (h : m.wf) (base : Nat) : (scrollRows base m).wf := by
  constructor
  · unfold scrollRows
    rw [List.pairwise_filterMap]
    refine h.1.imp fun {c d} hcd c' hc' d' hd' => ?_
    have h1 := movedUp_eq_some hc'
    have h2 := movedUp_eq_some hd'
    omega
  · intro d hd
    obtain ⟨c, hc, hcd⟩ := List.mem_filterMap.1 hd
    have h1 := movedUp_eq_some hcd
    have h2 := h.2 c hc
    refine ⟨?_, h1.1 ▸ h2.2⟩
    have := h2.1
    omega

theorem fillCells_succ (fill : Cell) (a : Nat) (m : Memory) (n : Nat) :
    fillCells fill a m (n + 1) = writeCell (fillCells fill a m n) (a + 2 * n) fill := by
  simp [fillCells, List.range_succ, List.foldl_append]

theorem read_fillCells_outside (fill : Cell) (a : Nat) (m : Memory) (n b : Nat)
    (h : b < a ∨ a + 2 * n ≤ b) : (fillCells fill a m n).read b = m.read b := by
  induction n with
  | zero => rfl
  | succ n ih => rw [fillCells_succ, read_writeCell, if_neg (by omega), if_neg (by omega), ih (by omega)]

theorem read_fillCells_inside (fill : Cell) (a : Nat) (m : Memory) (n j : Nat) (h : j < n) :
    (fillCells fill a m n).read (a + 2 * j) = fill.char ∧
      (fillCells fill a m n).read (a + 2 * j + 1) = fill.attr := by
  induction n with
  | zero => omega
  | succ n ih =>
    rw [fillCells_succ, read_writeCell, read_writeCell]
    by_cases hj : j = n
    · subst hj; simp
    · have := ih (by omega)
      rw [if_neg (by omega), if_neg (by omega), if_neg (by omega), if_neg (by omega)]
      exact this

theorem fillCells_wf (fill : Cell) {a : Nat} {m : Memory} (h : m.wf) (n : Nat) (ha : a + 2 * n ≤ memSize) :
    (fillCells fill a m n).wf := by
  induction n with
  | zero => exact h
  | succ n ih =>
    rw [fillCells_succ]
    exact writeCell_wf (ih (by omega)) (by omega) _

/-! ## SCROLL (41_teletype.md R127) -/

theorem read_scroll_moved (cfg : Config) (m : Memory) (k : Nat) (h : k < 3840) :
    (scroll cfg m).read (cfg.videoBase.val + k) = m.read (cfg.videoBase.val + k + 160) := by
  rw [scroll, read_fillCells_outside _ _ _ _ _ (by omega), read_scrollRows_moved _ _ _ h]

theorem read_scroll_filled (cfg : Config) (m : Memory) (j : Nat) (h : j < 80) :
    (scroll cfg m).read (cfg.videoBase.val + 3840 + 2 * j) = cfg.scrollFill.char ∧
      (scroll cfg m).read (cfg.videoBase.val + 3840 + 2 * j + 1) = cfg.scrollFill.attr :=
  read_fillCells_inside _ _ _ _ _ h

theorem read_scroll_outside (cfg : Config) (m : Memory) (a : Nat)
    (h : a < cfg.videoBase.val ∨ cfg.videoBase.val + 4000 ≤ a) : (scroll cfg m).read a = m.read a := by
  rw [scroll, read_fillCells_outside _ _ _ _ _ (by simp; omega), read_scrollRows_outside _ _ _ h]

theorem scroll_wf (cfg : Config) {m : Memory} (h : m.wf) : (scroll cfg m).wf := by
  have := window_in_memory cfg
  exact fillCells_wf _ (scrollRows_wf h _) _ (by simp; omega)

/-! ## The cursor and the whole command -/

/-- What the advance does, case by case: along the row, to the next row, or a scroll. -/
theorem advanceCursor_cases {s : State} (hc : s.curCol.toNat < 80) (hr : s.curRow.toNat < 25) :
    (s.curCol.toNat < 79 ∧ advanceCursor s = s.setCursor (s.curCol.toNat + 1) s.curRow.toNat) ∨
      (s.curCol.toNat = 79 ∧ s.curRow.toNat < 24 ∧ advanceCursor s = s.setCursor 0 (s.curRow.toNat + 1)) ∨
      (s.curCol.toNat = 79 ∧ s.curRow.toNat = 24 ∧
        advanceCursor s = (s.setMem (scroll s.cfg s.mem)).setCursor 0 24) := by
  by_cases h79 : s.curCol.toNat = 79
  · by_cases h24 : s.curRow.toNat = 24
    · exact .inr (.inr ⟨h79, h24, by simp [advanceCursor, h79, h24]⟩)
    · exact .inr (.inl ⟨h79, by omega, by simp [advanceCursor, h79, h24]⟩)
  · refine .inl ⟨by omega, ?_⟩
    simp only [advanceCursor, show ¬s.curCol.toNat + 1 = 80 by omega, if_false,
      show ¬s.curRow.toNat = 25 by omega]

/-- The two forms of the advance: the cursor alone, or a scroll and the cursor in row 24. -/
theorem advanceCursor_shape (s : State) :
    (∃ c r, advanceCursor s = s.setCursor c r) ∨
      ∃ c, advanceCursor s = (s.setMem (scroll s.cfg s.mem)).setCursor c 24 := by
  unfold advanceCursor
  dsimp only
  generalize (if s.curCol.toNat + 1 = 80 then s.curRow.toNat + 1 else s.curRow.toNat) = r
  by_cases hr : r = 25
  · rw [if_pos hr]; exact .inr ⟨_, rfl⟩
  · rw [if_neg hr]; exact .inl ⟨_, _, rfl⟩

theorem teletype_of_legal (c : Byte) {s : State} (hc : s.curCol.toNat < 80) (hr : s.curRow.toNat < 25) :
    teletype c s = .next (advanceCursor (s.setMem (writeCell s.mem s.cursorAddress ⟨c, ttyAttr⟩))) := by
  rw [teletype, if_pos ((cursorLegal_iff s).2 ⟨hc, hr⟩)]

/-- TTYPUT answers a next state only on the grid: the two stores, then the advance. -/
theorem teletype_cases {c : Byte} {s t : State} (h : teletype c s = .next t) :
    s.curCol.toNat < 80 ∧ s.curRow.toNat < 25 ∧
      t = advanceCursor (s.setMem (writeCell s.mem s.cursorAddress ⟨c, ttyAttr⟩)) := by
  unfold teletype at h
  split at h
  · rename_i hl
    rw [cursorLegal_iff] at hl
    cases h; exact ⟨hl.1, hl.2, rfl⟩
  · cases h

/-- The advance leaves everything but the cursor and memory. -/
theorem advanceCursor_frame (s : State) :
    advanceCursor s = { s with
      mem := (advanceCursor s).mem, curCol := (advanceCursor s).curCol, curRow := (advanceCursor s).curRow } := by
  rcases advanceCursor_shape s with ⟨c, r, e⟩ | ⟨c, e⟩ <;> rw [e] <;> rfl

/-- The advance keeps every byte outside the window. -/
theorem read_advanceCursor_outside (s : State) (a : Nat)
    (h : a < s.cfg.videoBase.val ∨ s.cfg.videoBase.val + 4000 ≤ a) :
    (advanceCursor s).mem.read a = s.mem.read a := by
  rcases advanceCursor_shape s with ⟨c, r, e⟩ | ⟨c, e⟩ <;> rw [e]
  · rfl
  · exact read_scroll_outside _ _ _ h

theorem advanceCursor_wf {s : State} (h : s.mem.wf) : (advanceCursor s).mem.wf := by
  rcases advanceCursor_shape s with ⟨c, r, e⟩ | ⟨c, e⟩ <;> rw [e]
  · exact h
  · exact scroll_wf _ h

/-- The advance leaves the cursor on the grid. -/
theorem advanceCursor_legal {s : State} (hc : s.curCol.toNat < 80) (hr : s.curRow.toNat < 25) :
    (advanceCursor s).curCol.toNat < 80 ∧ (advanceCursor s).curRow.toNat < 25 := by
  rcases advanceCursor_cases hc hr with ⟨h, e⟩ | ⟨h, h', e⟩ | ⟨h, h', e⟩ <;> rw [e] <;>
    simp only [State.setCursor_curCol, State.setCursor_curRow, BitVec.toNat_ofNat] <;> omega

end Sys2Proof.Machine
end

