-- ==== Sys2Proof/Laws/Step.lean ====
section
/-! SUPPORT. What a command, a startup event, a phase of a frame and a step can do. -/

namespace Sys2Proof.Machine

/-! ## exec on an active block -/

theorem exec_fontload {s : State} (h : s.fault = .none) : exec .fontload s = loadFont s :=
  unlessQuiescent_of_none _ h

theorem exec_ttyput {s : State} (c : Byte) (h : s.fault = .none) : exec (.ttyput c) s = teletype c s :=
  unlessQuiescent_of_none _ h

theorem exec_compose {s : State} (h : s.fault = .none) : exec .compose s = composeFrame s :=
  unlessQuiescent_of_none _ h

/-! ## What a command word, an interrupt, boot selection and startup can do -/

/-- Everything one command word can do: nothing (the block is quiescent), raise a fault (that of an unsupported
font with a free code), load the font, write a cell and advance the cursor, or paint the frame. -/
inductive CommandEffect (w : Word) (s : State) : State → Prop where
  | ignored (h : s.fault ≠ .none) : CommandEffect w s s
  | raised (k : FaultCode) (h : s.fault = .none) (hk : k ≠ .none) : CommandEffect w s (s.raiseFault k)
  | unsupported (h : s.fault = .none) (hw : decode w = .ok .fontload) (hf : s.fontOk = false)
      (hm : s.cfg.fontModesRefused ≠ []) : CommandEffect w s s.raiseUnsupportedFont
  | loaded (g : GlyphTable) (h : s.fault = .none) (hw : decode w = .ok .fontload) (hf : s.fontOk = false) :
      CommandEffect w s (s.setGlyphs g)
  | typed (c : Byte) (h : s.fault = .none) (hw : decode w = .ok (.ttyput c)) (hc : s.curCol.toNat < 80)
      (hr : s.curRow.toNat < 25) :
      CommandEffect w s (advanceCursor (s.setMem (writeCell s.mem s.cursorAddress ⟨c, ttyAttr⟩)))
  | composed (g : GlyphTable) (h : s.fault = .none) (hw : decode w = .ok .compose) (hf : s.fontOk = true)
      (hg : s.glyphs = some g) : CommandEffect w s (s.setFrame (rasterize s.cfg s.windowCells g))

theorem runCommand_cases {w : Word} {s t : State} (h : runCommand w s = .next t) : CommandEffect w s t := by
  unfold runCommand at h
  split at h
  · rename_i i hw
    cases i with
    | fontload =>
      rcases unlessQuiescent_cases h with ⟨hs, rfl⟩ | ⟨hs, h⟩
      · exact .ignored hs
      · rcases loadFont_cases h with ⟨k, hk, rfl⟩ | ⟨hu, rfl⟩ | ⟨g, hf, _, rfl⟩
        · exact .raised k hs (fontVerdict_raise_ne_none hk)
        · have hm := modes_refused_of_unsupported hu
          exact .unsupported hs hw hm.1 hm.2
        · exact .loaded g hs hw hf
    | ttyput c =>
      rcases unlessQuiescent_cases h with ⟨hs, rfl⟩ | ⟨hs, h⟩
      · exact .ignored hs
      · obtain ⟨hc, hr, rfl⟩ := teletype_cases h
        exact .typed c hs hw hc hr
    | compose =>
      rcases unlessQuiescent_cases h with ⟨hs, rfl⟩ | ⟨hs, h⟩
      · exact .ignored hs
      · rcases composeFrame_cases h with ⟨_, rfl⟩ | ⟨g, hf, hg, rfl⟩
        · exact .raised _ hs (by simp)
        · exact .composed g hs hw hf hg
  · rename_i f _
    rcases unlessQuiescent_cases h with ⟨hs, rfl⟩ | ⟨hs, h⟩
    · exact .ignored hs
    · cases h; exact .raised _ hs (by cases f <;> simp [decodeFaultCode])

/-- A quiescent block ignores every word (60_exceptions.md R173). -/
theorem runCommand_of_fault (w : Word) {s : State} (h : s.fault ≠ .none) : runCommand w s = .next s := by
  unfold runCommand
  split
  · rename_i i _
    cases i <;> exact unlessQuiescent_of_fault _ h
  · exact unlessQuiescent_of_fault _ h

/-- A command leaves the parameters, the accumulator, the inputs and the sequencer alone. -/
theorem CommandEffect.outside {w : Word} {s t : State} (h : CommandEffect w s t) :
    t.cfg = s.cfg ∧ t.acc = s.acc ∧ t.halted = s.halted ∧ t.port = s.port ∧ t.stream = s.stream ∧
      t.phase = s.phase ∧ t.bootDone = s.bootDone ∧ t.startup = s.startup ∧ t.polls = s.polls ∧
      t.guest = s.guest ∧ t.presented = s.presented := by
  cases h with
  | typed c => rw [advanceCursor_frame]; simp
  | _ => simp

/-- Everything a software interrupt can do: nothing, or one TTYPUT of AL (41_teletype.md R120, R121). -/
theorem softwareInterrupt_cases {v : Byte} {s t : State} (h : softwareInterrupt v s = .next t) :
    t = s ∨ (v = videoVector ∧ s.ah = teletypeService ∧ CommandEffect (encode (.ttyput s.al)) s t) := by
  unfold softwareInterrupt at h
  split at h
  · rename_i hv; exact .inr ⟨hv.1, hv.2, runCommand_cases h⟩
  · cases h; exact .inl rfl

/-- Everything boot selection can do: end the run, or copy one sector inside memory. -/
theorem bootSelection_cases {ds : List (List Byte)} {l : Nat} {s t : State}
    (h : bootSelection ds l s = .next t) :
    t = s.setPhase (.ended .noBootDevice) ∨
      ∃ d ∈ ds, qualifiesForBoot d = true ∧ l + 512 ≤ memSize ∧
        t = { s with mem := s.mem.writeBytes l (d.take 512), bootDone := true } := by
  unfold bootSelection at h
  split at h
  · cases h; exact .inl rfl
  · rename_i d hd
    split at h
    · cases h
      exact .inr ⟨d, List.mem_of_find?_eq_some hd, List.find?_some hd, ‹_›, rfl⟩
    · cases h

/-- Everything startup can do in one step. -/
theorem startupStep_cases {s t : State} (h : startupStep s = .next t) :
    (s.fault ≠ .none ∧ t = s.setPhase (.ended .startupFault)) ∨
      (s.fault = .none ∧ s.fontOk = true ∧ s.bootDone = true ∧ t = s.setPhase .poll) ∨
      (s.fault = .none ∧ s.startup = [] ∧ t = s) ∨
      (∃ l rest, s.fault = .none ∧ s.startup = .font l :: rest ∧
        CommandEffect (encode .fontload) ({ s with startup := rest }.setStream l) t) ∨
      ∃ ds l rest, s.fault = .none ∧ s.startup = .boot ds l :: rest ∧
        bootSelection ds l { s with startup := rest } = .next t := by
  unfold startupStep at h
  split at h
  · rename_i hf
    cases h; exact .inl ⟨(faulted_eq_true_iff s).1 hf, rfl⟩
  · rename_i hf
    have hf : s.fault = .none := (faulted_eq_false_iff s).1 (by simpa using hf)
    split at h
    · rename_i hb
      rw [Bool.and_eq_true] at hb
      cases h; exact .inr (.inl ⟨hf, hb.1, hb.2, rfl⟩)
    · split at h
      · cases h; exact .inr (.inr (.inl ⟨hf, ‹_›, rfl⟩))
      · exact .inr (.inr (.inr (.inl ⟨_, _, hf, ‹_›, runCommand_cases h⟩)))
      · exact .inr (.inr (.inr (.inr ⟨_, _, _, hf, ‹_›, h⟩)))

/-! ## What a step can do -/

/-- What step 2 of a frame leaves, from the state t with the instruction taken and step 3 next. -/
inductive GuestEffect (a : GuestAction) (t : State) : State → Prop where
  | nothing : GuestEffect a t t
  | typed (u : State) (ha : a = .softInt videoVector) (hs : t.ah = teletypeService)
      (h : CommandEffect (encode (.ttyput t.al)) t u) : GuestEffect a t u
  | moved (v : BitVec 32) : GuestEffect a t (t.setAcc v)
  | halted (ha : a = .hlt) : GuestEffect a t { t with halted := true }
  | failed (ha : a = .decodeError) : GuestEffect a t (t.setPhase (.ended .decodeError))

theorem executeStep_cases {s t : State} (h : executeStep s = .next t) :
    ∃ a rest, s.guest = a :: rest ∧ GuestEffect a ({ s with guest := rest }.setPhase .compose) t := by
  unfold executeStep at h
  split at h
  · cases h
  · rename_i a rest hg
    refine ⟨a, rest, hg, ?_⟩
    cases a with
    | softInt v =>
      rcases softwareInterrupt_cases h with rfl | ⟨rfl, hs, h⟩
      · exact .nothing
      · exact .typed t rfl hs h
    | moveAcc v => cases h; exact .moved v
    | moveAl v => cases h; exact .moved _
    | moveAh v => cases h; exact .moved _
    | hlt => cases h; exact .halted rfl
    | decodeError => cases h; exact .failed rfl
    | other => cases h; exact .nothing

/-- Everything one step can do. -/
inductive StepEffect (s : State) : State → Prop where
  | command (c : Command) (rest : List Command) (t : State) (hp : s.port = c :: rest)
      (h : CommandEffect c.word ((s.setPort rest).setStream c.stream) t) : StepEffect s t
  | startup (t : State) (hp : s.port = []) (hq : s.phase = .startup) (h : startupStep s = .next t) : StepEffect s t
  | shutdown (hp : s.port = []) (hq : s.phase = .poll) (h : s.polls.head? = some true) :
      StepEffect s ({ s with polls := s.polls.tail }.setPhase (.ended .shutdown))
  | polled (p : Phase) (hp : s.port = []) (hq : s.phase = .poll) (h : s.polls.head? ≠ some true)
      (hh : p = if s.halted then .compose else .execute) :
      StepEffect s ({ s with polls := s.polls.tail }.setPhase p)
  | executed (a : GuestAction) (rest : List GuestAction) (t : State) (hp : s.port = [])
      (hq : s.phase = .execute) (hg : s.guest = a :: rest)
      (h : GuestEffect a ({ s with guest := rest }.setPhase .compose) t) : StepEffect s t
  | composed (t : State) (hp : s.port = []) (hq : s.phase = .compose)
      (h : CommandEffect (encode .compose) (s.setPhase .present) t) : StepEffect s t
  | presented (hp : s.port = []) (hq : s.phase = .present) :
      StepEffect s ({ s with presented := some s.fb }.setPhase .poll)

theorem step_cases {s t : State} (h : step s = .next t) : StepEffect s t := by
  unfold step at h
  split at h
  · exact .command _ _ _ ‹_› (runCommand_cases h)
  · rename_i hp
    unfold sequencerStep at h
    split at h
    · exact .startup _ hp ‹_› h
    · rename_i hq
      simp only [pollStep] at h
      split at h
      · cases h; exact .shutdown hp hq ‹_›
      · rename_i hs
        split at h <;> rename_i hh
        · cases h; exact .polled _ hp hq hs (by simp [hh])
        · cases h; exact .polled _ hp hq hs (by simp [hh])
    · obtain ⟨a, rest, hg, h⟩ := executeStep_cases h
      exact .executed a rest _ hp ‹_› hg h
    · exact .composed _ hp ‹_› (runCommand_cases h)
    · cases h; exact .presented hp ‹_›
    · cases h

end Sys2Proof.Machine
end

