-- ==== Sys2Proof/Laws/Run.lean ====
section
/-! SUPPORT. Runs of several steps, put together from their steps. -/

namespace Sys2Proof.Machine

theorem run_zero (s : State) : Host.Core.run core 0 s = .next s := rfl

theorem run_succ_of_next (n : Nat) {s t : State} (h : step s = .next t) :
    Host.Core.run core (n + 1) s = Host.Core.run core n t := by
  have e := Host.Core.run.eq_2 core s n
  exact e.trans (by rw [show core.step s = .next t from h])

theorem run_succ_of_fault (n : Nat) {s : State} {f : Fault} (h : step s = .fault f) :
    Host.Core.run core (n + 1) s = .fault f := by
  have e := Host.Core.run.eq_2 core s n
  exact e.trans (by rw [show core.step s = .fault f from h])

theorem run_succ_of_refused (n : Nat) {s : State} {r : Refusal} (h : step s = .refused r) :
    Host.Core.run core (n + 1) s = .refused r := by
  have e := Host.Core.run.eq_2 core s n
  exact e.trans (by rw [show core.step s = .refused r from h])

/-- m + n steps are n steps from where m steps lead. -/
theorem run_add (m n : Nat) {s t : State} (h : Host.Core.run core m s = .next t) :
    Host.Core.run core (m + n) s = Host.Core.run core n t := by
  induction m generalizing s with
  | zero => cases h; rw [Nat.zero_add]
  | succ m ih =>
    rw [Nat.succ_add]
    cases hs : step s with
    | next u => exact (run_succ_of_next (m + n) hs).trans (ih ((run_succ_of_next m hs).symm.trans h))
    | fault f => exact absurd ((run_succ_of_fault m hs).symm.trans h) (by simp)
    | refused r => exact absurd ((run_succ_of_refused m hs).symm.trans h) (by simp)

end Sys2Proof.Machine
end

