-- ==== Sys2Proof/Tests/Slice0.lean ====
section
/-! SUPPORT. Tests of decoding and of the commands, with results from spec/95_test_vectors.md and the encodings of
spec/30_encoding.md, and a witness for the hypotheses of every statement that has some. -/

namespace Sys2Proof.Tests

open Sys2Proof.Machine

/-! ## Decoding: words written out bit by bit from R71 -/

/-- OP 00000001, RSV 0, IMM8 0 (R71). -/
theorem test_decode_fontload_bits : decode 0b00000001000000000000000000000000#32 = .ok .fontload := by decide

/-- OP 00000010, RSV 0, IMM8 01000001 (R71, R73). -/
theorem test_decode_ttyput_bits : decode 0b00000010000000000000000001000001#32 = .ok (.ttyput 0x41) := by decide

/-- OP 00000011, RSV 0, IMM8 0 (R71). -/
theorem test_decode_compose_bits : decode 0b00000011000000000000000000000000#32 = .ok .compose := by decide

/-- OP is checked before the reserved bits (95, 2.1). -/
theorem test_decode_bad_op_first : decode 0xFF000041#32 = .error .badOp := by decide

/-- Bit 23 is reserved (95, 2.1). -/
theorem test_decode_reserved_bit_23 : decode 0x02800000#32 = .error .reservedBits := by decide

theorem test_decodeTableWord : decodeTableWord 32 0x02000041 = some (.ttyput 0x41) := by decide

/-! ## WellFormed: for each check a word that it alone refuses (R74) -/

theorem test_illformed_op : Word.opDefined 0x04000000 = false ∧ Word.rsvZero 0x04000000 = true ∧
    Word.immAllowed 0x04000000 = true ∧ Word.wellFormed 0x04000000 = false := by decide

theorem test_illformed_rsv : Word.opDefined 0x02000100 = true ∧ Word.rsvZero 0x02000100 = false ∧
    Word.immAllowed 0x02000100 = true ∧ Word.wellFormed 0x02000100 = false := by decide

theorem test_illformed_imm : Word.opDefined 0x03000001 = true ∧ Word.rsvZero 0x03000001 = true ∧
    Word.immAllowed 0x03000001 = false ∧ Word.wellFormed 0x03000001 = false := by decide

theorem test_wellformed_words : Word.wellFormed 0x01000000 = true ∧ Word.wellFormed 0x020000FF = true ∧
    Word.wellFormed 0x03000000 = true ∧ Instr.wellFormed (.ttyput 0xFF) = true := by decide

/-! ## Small states -/

/-- The test font TF of 95: 36 04 00 10, then glyph byte (c + r) mod 256 at 4 + 16c + r. -/
def tf : List Byte :=
  [0x36, 0x04, 0x00, 0x10] ++ (List.range 4096).map fun i => BitVec.ofNat 8 (i / 16 + i % 16)

/-- The glyph table of TF. -/
def tfGlyphs : GlyphTable := tabulate fun c => tabulate fun r => BitVec.ofNat 8 (c.val + r.val)

/-- Reset, with the font stream l handed over. -/
def withStream (l : List Byte) : State := { State.reset with stream := l }

/-- Reset, then FONTLOAD TF. -/
def loaded : State := { State.reset with glyphs := some tfGlyphs, fontOk := true }

/-- A block with TF loaded, the cursor at (col, row) and the memory m. -/
def at_ (col row : Byte) (m : Memory) : State := { loaded with curCol := col, curRow := row, mem := m }

/-- Reset, with a fault recorded. -/
def faulty : State := { State.reset with fault := .cmdBadOp }

/-- Inside a run: a block with TF loaded, boot finished, the sequencer at p. -/
def running (p : Phase) : State := { loaded with bootDone := true, phase := p }

/-- A boot sector of 512 zero bytes but for 55 AA at its end. -/
def bootSector : List Byte := List.replicate 510 0x00 ++ [0x55, 0xAA]

/-- A property of the next state. -/
def after (o : Host.Outcome State Fault Refusal) (p : State → Bool) : Bool :=
  match o with
  | .next t => p t
  | .fault _ => false
  | .refused _ => false

/-! ## One step of each command (95) -/

/-- 95, 2.2: L = 0 gives FONT_MISSING, STATUS 0x00000012. -/
theorem test_fontload_missing : after (exec .fontload State.reset) (·.status == 0x00000012) = true := by decide

/-- 95, 2.2: the magic is checked before the height and the length, STATUS 0x00000032. -/
theorem test_fontload_magic_first :
    after (exec .fontload (withStream [0x37, 0x04, 0x00, 0x08])) (·.status == 0x00000032) = true := by decide

/-- 95, 2.3: at (79, 0), 0x42 goes to 0xB809E and 0xB809F, STATUS cursor bits 0x00010000. -/
theorem test_ttyput_wraps :
    after (exec (.ttyput 0x42) (at_ 79 0 [])) (fun t =>
      t.mem == [(0xB809E, 0x42), (0xB809F, 0x07)] && t.status == 0x00010001) = true := by decide

/-- 95, 2.3: at (79, 24) with cell (0, 1) = 42 07, 0x5A scrolls: cell (0, 0) = 42 07, cell (79, 23) = 5A 07, the
first and last byte of row 24 = 20 07, cursor (0, 24). -/
theorem test_ttyput_scrolls :
    after (exec (.ttyput 0x5A) (at_ 79 24 [(0xB80A0, 0x42), (0xB80A1, 0x07)])) (fun t =>
      t.mem.take 5 == [(0xB8000, 0x42), (0xB8001, 0x07), (0xB8EFE, 0x5A), (0xB8EFF, 0x07), (0xB8F00, 0x20)] &&
        t.mem.length == 164 && t.readByte 0xB8F9F == 0x07 && t.status == 0x00180001) = true := by
  decide +kernel

/-- 95, 2.4: 41 07 at cell (0, 0) gives row y = 0 the lanes B F B B B B B F. -/
theorem test_compose_row_zero :
    (List.finRange 8).map (fun x => pixelOf defaultConfig
      (at_ 0 0 [(0xB8000, 0x41), (0xB8001, 0x07)]).windowCells tfGlyphs ⟨x.val, by omega⟩ 0) =
      [0xFF000000, 0xFFAAAAAA, 0xFF000000, 0xFF000000, 0xFF000000, 0xFF000000, 0xFF000000, 0xFFAAAAAA] := by
  decide +kernel

/-- 95, 2.4: COMPOSE from reset with no FONTLOAD, STATUS 0x00000092. -/
theorem test_compose_not_ready : after (exec .compose State.reset) (·.status == 0x00000092) = true := by decide

/-- 95, 2.4: row byte 0xA5 gives F B F B B F B F (foreground 1, background 0 here). -/
theorem test_expand_a5 : (expand true 0xA5 1#32 0#32).toList = [1, 0, 1, 0, 0, 1, 0, 1] := by decide

/-- A word placed by withFetchWord runs as the first command after reset (95, 2.1: 0x020000FF, cursor (1, 0)). -/
theorem test_withFetchWord :
    after (step (State.reset.withFetchWord 32 0x020000FF)) (·.status == 0x00000100) = true := by decide

/-- R76, R77: `fill 2, 'A' ; x` assembles to two TTYPUT 0x41. -/
theorem test_assemble_fill :
    assembleLine ['f', 'i', 'l', 'l', ' ', '2', ',', ' ', '\'', 'A', '\'', ' ', ';', 'x'] =
      some [.ttyput 0x41, .ttyput 0x41] := by decide

/-! ## Witnesses: a state and operands that meet the hypotheses of each statement -/

theorem exec_fontload_next {s : State} (h : s.fault = .none) : ∃ t, exec .fontload s = .next t := by
  rw [exec_fontload h]
  exact loadFont_next s

theorem exec_ttyput_next {s : State} (c : Byte) (h : s.fault = .none) (hc : s.curCol.toNat < 80)
    (hr : s.curRow.toNat < 25) : ∃ t, exec (.ttyput c) s = .next t :=
  ⟨_, (exec_ttyput c h).trans (teletype_of_legal c hc hr)⟩

theorem exec_compose_next {s : State} {g : GlyphTable} (h : s.fault = .none) (hf : s.fontOk = true)
    (hg : s.glyphs = some g) : ∃ t, exec .compose s = .next t :=
  ⟨_, (exec_compose h).trans (composeFrame_of_font hf hg)⟩

theorem witness_DecodedWordIsItsEncoding : decode 0x020000FF#32 = .ok (.ttyput 0xFF) := by decide

theorem witness_StepRunsTheDecodedCommand : ∃ s : State, ∃ c, s.port = [c] ∧ decode c.word = .ok (.ttyput 0x00) :=
  ⟨State.reset.setPort [⟨0x02000000, []⟩], ⟨0x02000000, []⟩, rfl, by decide⟩

theorem witness_FetchWordIsRunNext : 0xFFFFFFFF < 2 ^ 32 := by decide

theorem witness_RaisedFaultHasNoOtherEffect :
    ∃ s t : State, s.fault = .none ∧ runCommand 0x04000000 s = .next t ∧ t.fault ≠ .none :=
  ⟨State.reset, State.reset.raiseFault .cmdBadOp, rfl, rfl, by decide⟩

theorem witness_FaultedBlockIsQuiescent : ∃ s t : State, s.fault ≠ .none ∧ step s = .next t :=
  ⟨faulty, faulty.setPhase (.ended .startupFault), by decide, rfl⟩

theorem witness_FaultedBlockIgnoresExec : faulty.fault ≠ .none := by decide

theorem witness_FaultCodeNumbers : FaultCode.code .cmdNotReady = FaultCode.code .cmdNotReady := rfl

theorem witness_FontloadLoadsTheTable :
    (withStream tf).fault = .none ∧ (withStream tf).fontOk = false ∧ tf[0]? = some 0x36#8 ∧
      tf[1]? = some 0x04#8 ∧ tf[2]? = some 0x00#8 ∧ 0x00#8 ∉ (withStream tf).cfg.fontModesRefused ∧
      tf[3]? = some 0x10#8 ∧ 4100 ≤ tf.length :=
  ⟨rfl, rfl, rfl, rfl, rfl, by decide, rfl, by simp [tf]⟩

/-- The clauses of FontloadFaultsInOrder in turn, each at a boundary of its range: a loaded block; L = 0; L = 1 and
L = 3; a wrong first and a wrong second byte at L = 4; a wrong height at L = 4; L = 4 and L = 4099. -/
theorem witness_FontloadFaultsInOrder :
    loaded.fault = .none ∧ loaded.fontOk = true ∧
    (withStream []).fault = .none ∧ (withStream []).fontOk = false ∧ (withStream []).stream.length = 0 ∧
    (withStream [0x36]).stream.length = 1 ∧ (withStream [0x36, 0x04, 0x00]).stream.length = 3 ∧
    (withStream [0x37, 0x04, 0x00, 0x10]).stream[0]? ≠ some 0x36#8 ∧
    (withStream [0x36, 0x05, 0x00, 0x10]).stream[1]? ≠ some 0x04#8 ∧
    (withStream [0x36, 0x04, 0x00, 0x08]).stream[3]? ≠ some 0x10#8 ∧
    (withStream [0x36, 0x04, 0x00, 0x10]).stream[2]? = some 0x00#8 ∧
    0x00#8 ∉ (withStream [0x36, 0x04, 0x00, 0x10]).cfg.fontModesRefused ∧
    (withStream (tf.take 4099)).stream.length = 4099 ∧ (withStream (tf.take 4099)).stream[3]? = some 0x10#8 :=
  ⟨rfl, rfl, rfl, rfl, rfl, rfl, rfl, by decide, by decide, by decide, rfl, by decide, by simp [withStream, tf], rfl⟩

theorem witness_FontloadFaultsOnRefusedMode : ∃ s : State, s.fault = .none ∧ s.fontOk = false ∧
    s.stream = [0x36, 0x04, 0x01, 0x10] ∧ 0x01#8 ∈ s.cfg.fontModesRefused :=
  ⟨{ withStream [0x36, 0x04, 0x01, 0x10] with cfg := { defaultConfig with fontModesRefused := [0x01] } },
    rfl, rfl, rfl, by decide⟩

theorem witness_FontloadIgnoresTrailingBytes :
    4100 ≤ (withStream tf).stream.length ∧ ∃ t, exec .fontload (withStream tf) = .next t :=
  ⟨by simp [withStream, tf], exec_fontload_next rfl⟩

theorem witness_FontloadIgnoresModeByte : State.reset.cfg.fontModesRefused = [] := rfl

theorem witness_GlyphTableIsImmutable : loaded.fontOk = true ∧ step loaded = .next loaded := ⟨rfl, rfl⟩

/-- At the first and the last cell of the grid. -/
theorem witness_TtyputFollowsPseudocode :
    ((at_ 0 0 []).fault = .none ∧ (at_ 0 0 []).mem.wf ∧ (at_ 0 0 []).curCol.toNat < 80 ∧
      (at_ 0 0 []).curRow.toNat < 25) ∧
    (at_ 79 24 []).fault = .none ∧ (at_ 79 24 []).mem.wf ∧ (at_ 79 24 []).curCol.toNat < 80 ∧
      (at_ 79 24 []).curRow.toNat < 25 := by
  refine ⟨⟨rfl, Memory.wf_nil, by decide, by decide⟩, rfl, Memory.wf_nil, by decide, by decide⟩

/-- The clause "column below 79" at 78, the clause "column 79" at row 23. -/
theorem witness_TtyputWritesOneCellAndAdvances :
    ((at_ 78 24 []).fault = .none ∧ (at_ 78 24 []).curCol.toNat < 79 ∧ (at_ 78 24 []).curRow.toNat < 25) ∧
    (at_ 79 23 []).fault = .none ∧ (at_ 79 23 []).curCol.toNat = 79 ∧ (at_ 79 23 []).curRow.toNat < 25 ∧
      ¬((at_ 79 23 []).curCol.toNat = 79 ∧ (at_ 79 23 []).curRow.toNat = 24) := by
  refine ⟨⟨rfl, by decide, by decide⟩, rfl, by decide, by decide, by decide⟩

theorem witness_TtyputAtLastCellScrolls :
    (at_ 79 24 []).fault = .none ∧ (at_ 79 24 []).curCol.toNat = 79 ∧ (at_ 79 24 []).curRow.toNat = 24 :=
  ⟨rfl, by decide, by decide⟩

theorem witness_ScrollEqualsTheSpecLoops : Memory.wf [(0xB80A0, 0x42), (0xB8F9F, 0x07)] := by decide

theorem witness_TtyputTouchesOnlyWindowAndCursor : ∃ t, exec (.ttyput 0x5A) (at_ 79 24 []) = .next t :=
  exec_ttyput_next _ rfl (by decide) (by decide)

theorem witness_NoCharacterCodeIsSpecial :
    (at_ 0 0 []).fault = .none ∧ ∃ t, exec (.ttyput 0x0D) (at_ 0 0 []) = .next t :=
  ⟨rfl, exec_ttyput_next _ rfl (by decide) (by decide)⟩

theorem witness_TtyputNeedsNoFont :
    State.reset.fault = .none ∧ State.reset.curCol.toNat < 80 ∧ State.reset.curRow.toNat < 25 :=
  ⟨rfl, by decide, by decide⟩

theorem witness_TtyputStopsOffTheGrid :
    (at_ 80 0 []).fault = .none ∧ 80 ≤ (at_ 80 0 []).curCol.toNat ∧ 25 ≤ (at_ 0 25 []).curRow.toNat :=
  ⟨rfl, by decide, by decide⟩

theorem witness_ComposePaintsEveryPixel :
    loaded.fault = .none ∧ loaded.fontOk = true ∧ loaded.glyphs = some tfGlyphs := ⟨rfl, rfl, rfl⟩

theorem witness_ComposeNeedsTheFont : State.reset.fault = .none ∧ State.reset.fontOk = false := ⟨rfl, rfl⟩

theorem witness_ComposeStopsWithoutTable : ∃ s : State, s.fault = .none ∧ s.fontOk = true ∧ s.glyphs = none :=
  ⟨{ State.reset with fontOk := true }, rfl, rfl, rfl⟩

theorem witness_ComposeIsPure : ∃ s s' t t' : State, s ≠ s' ∧ s.fault = .none ∧ s'.fault = .none ∧
    s.fontOk = true ∧ s'.fontOk = true ∧ s.glyphs = s'.glyphs ∧ s.cfg.palette = s'.cfg.palette ∧
    s.cfg.pixelLayout = s'.cfg.pixelLayout ∧ s.cfg.glyphMsbLeft = s'.cfg.glyphMsbLeft ∧
    (∀ k, k < 4000 → s.readByte (s.cfg.videoBase.val + k) = s'.readByte (s'.cfg.videoBase.val + k)) ∧
    exec .compose s = .next t ∧ exec .compose s' = .next t' := by
  obtain ⟨t, ht⟩ := exec_compose_next (s := loaded) rfl rfl rfl
  obtain ⟨t', ht'⟩ := exec_compose_next (s := at_ 5 3 []) rfl rfl rfl
  exact ⟨loaded, at_ 5 3 [], t, t', fun h => absurd (congrArg State.curCol h) (by decide), rfl, rfl, rfl, rfl, rfl,
    rfl, rfl, rfl, fun _ _ => rfl, ht, ht'⟩

/-- At the last cell of the grid, whose character byte differs. -/
theorem witness_ComposeHasNoCrossCellAliasing : ∃ (s t t' : State) (m : Memory), m ≠ s.mem ∧ s.fault = .none ∧
    s.fontOk = true ∧
    (∀ a, a ≠ cellAddress s.cfg (cellIndex 79 24) → a ≠ cellAddress s.cfg (cellIndex 79 24) + 1 →
      m.read a = s.mem.read a) ∧
    exec .compose s = .next t ∧ exec .compose { s with mem := m } = .next t' ∧
    ¬((0 : Fin 640).val / 8 = 79 ∧ (0 : Fin 400).val / 16 = 24) := by
  obtain ⟨t, ht⟩ := exec_compose_next (s := loaded) rfl rfl rfl
  obtain ⟨t', ht'⟩ := exec_compose_next (s := { loaded with mem := [(0xB8F9E, 0x01)] }) rfl rfl rfl
  refine ⟨loaded, t, t', [(0xB8F9E, 0x01)], by decide, rfl, rfl, fun a ha _ => ?_, ht, ht', by decide⟩
  have ha : 0xB8F9E ≠ a := fun e => ha (by rw [← e]; decide)
  simp only [Memory.read, if_neg ha]
  rfl

theorem witness_EqualColoursGiveSolidCell : ∃ t, exec .compose loaded = .next t ∧
    fgIndex (loaded.fetchCell (cellIndex 0 0)).attr = bgIndex (loaded.fetchCell (cellIndex 0 0)).attr := by
  obtain ⟨t, ht⟩ := exec_compose_next (s := loaded) rfl rfl rfl
  exact ⟨t, ht, by decide⟩

theorem witness_ZeroWindowComposesToPalZero : loaded.fault = .none ∧ loaded.fontOk = true ∧
    loaded.glyphs = some tfGlyphs ∧ ∀ k, k < 4000 → loaded.readByte (loaded.cfg.videoBase.val + k) = 0x00 :=
  ⟨rfl, rfl, rfl, fun _ _ => rfl⟩

/-- A frame painted in one colour; the byte offsets of the first and the last pixel. -/
theorem witness_FrameBytesAreRgba : ∃ (f : FrameBuffer) (c : Rgb),
    (∀ (x : Fin 640) (y : Fin 400), (f[y.val])[x.val] = packPixel rgbaLayout c) ∧
    (0 : Fin 1024000).val = 4 * (0 * 640 + 0) ∧ (1 : Fin 1024000).val = 4 * (0 * 640 + 0) + 1 ∧
    (2 : Fin 1024000).val = 4 * (0 * 640 + 0) + 2 ∧ (1023999 : Fin 1024000).val = 4 * (399 * 640 + 639) + 3 :=
  ⟨Vector.replicate 400 (Vector.replicate 640 (packPixel rgbaLayout ⟨1, 2, 3⟩)), ⟨1, 2, 3⟩,
    fun x y => by simp only [Vector.getElem_replicate], rfl, rfl, rfl, rfl⟩

theorem inv_of_reset : State.reset.Inv :=
  ⟨Memory.wf_nil, by decide, by decide, rfl, fun h => absurd h (by decide), fun _ => rfl,
    fun h => absurd h (by decide)⟩

theorem witness_StepKeepsTheInvariant : ∃ t : State, State.reset.Inv ∧ step State.reset = .next t :=
  ⟨_, inv_of_reset, rfl⟩

theorem witness_PaletteIsReadOnly : step State.reset = .next State.reset := rfl

/-- The frame of a COMPOSE of the blank window after TF is not the frame at reset. -/
theorem witness_OnlyComposeWritesTheFrame : ∃ t : State, step (running .compose) = .next t ∧
    t.fb ≠ (running .compose).fb := by
  refine ⟨_, composeFrame_of_font (s := (running .compose).setPhase .present) rfl rfl, fun h => ?_⟩
  have h := congrArg (fun f : FrameBuffer => (f[0])[0]) h
  revert h
  simp only [State.setFrame_fb, getElem_rasterize]
  decide +kernel

theorem boot_sector (s : State) : bootSelection [bootSector] 0x7C00 s =
    .next { s with mem := s.mem.writeBytes 0x7C00 (bootSector.take 512), bootDone := true } := by
  have hb : [bootSector].find? qualifiesForBoot = some bootSector := by decide +kernel
  simp only [bootSelection, hb]
  rfl

theorem step_boot (ds : List (List Byte)) (loc : Nat) :
    step { State.reset with startup := [.boot ds loc] } = bootSelection ds loc State.reset := rfl

/-- The three clauses in turn: TTYPUT from the port, INT 0x10 in a frame, the boot copy in startup. -/
theorem witness_OnlyTtyputWritesWindowAndCursor :
    (∃ s t : State, step s = .next t ∧ t.curCol ≠ s.curCol ∧ s.port = [⟨0x02000041, []⟩]) ∧
    (∃ s t : State, step s = .next t ∧ t.curCol ≠ s.curCol ∧ s.guest = [.softInt 0x10] ∧ s.port = []) ∧
    ∃ s t : State, step s = .next t ∧ t.mem ≠ s.mem ∧ s.startup = [.boot [bootSector] 0x7C00] ∧ s.port = [] := by
  refine ⟨⟨State.reset.setPort [⟨0x02000041, []⟩], _, rfl, by decide, rfl⟩,
    ⟨{ running .execute with guest := [.softInt 0x10], acc := 0x0E41 }, _, rfl, by decide, rfl, rfl⟩,
    ⟨{ State.reset with startup := [.boot [bootSector] 0x7C00] }, _, (step_boot _ _).trans (boot_sector _),
      fun h => absurd (congrArg (fun m : Memory => m.read 0x7DFE) h) (by decide +kernel), rfl, rfl⟩⟩

/-- The routing vectors of 95, 2.3: INT 0x10 with AH = 0x0E writes; AH = 0x00 or INT 0x13 does nothing. -/
theorem test_routing :
    after (softwareInterrupt 0x10 (State.reset.setAcc 0x0E41)) (fun t =>
      t.mem == [(0xB8000, 0x41), (0xB8001, 0x07)] && t.acc == 0x0E41) = true ∧
    after (softwareInterrupt 0x10 (State.reset.setAcc 0x0041)) (fun t => t.mem == [] && t.curCol == 0) = true ∧
    after (softwareInterrupt 0x13 (State.reset.setAcc 0x0E41)) (fun t => t.mem == [] && t.curCol == 0) = true := by
  decide

/-- The four clauses in turn. -/
theorem witness_GuestMovesAndHalt : (running .execute).port = [] ∧ (running .execute).phase = .execute ∧
    ∀ a ∈ [GuestAction.moveAl 0x41, .moveAh 0x0E, .moveAcc 0xFFFFFFFF, .hlt],
      ({ running .execute with guest := [a] } : State).guest = [a] := ⟨rfl, rfl, fun _ _ => rfl⟩

theorem witness_ShutdownOnlyAtPoll : ∃ s t : State, s.port = [] ∧ s.phase = .poll ∧ s.polls = [true] ∧
    step s = .next t ∧ t.phase = .ended .shutdown ∧ s.phase ≠ .ended .shutdown :=
  ⟨{ running .poll with polls := [true] }, _, rfl, rfl, rfl, rfl, rfl, by decide⟩

theorem witness_HaltedFramesAreIdentical : ∃ s : State, s.port = [] ∧ s.phase = .poll ∧ s.halted = true ∧
    s.fault = .none ∧ s.fontOk = true ∧ s.glyphs = some tfGlyphs ∧ ∀ b ∈ s.polls, b = false :=
  ⟨{ running .poll with halted := true, polls := [false] }, rfl, rfl, rfl, rfl, rfl, rfl, by decide⟩

theorem witness_DecodeErrorEndsTheRun : ∃ s : State, s.port = [] ∧ s.phase = .execute ∧ s.guest = [.decodeError] :=
  ⟨{ running .execute with guest := [.decodeError] }, rfl, rfl, rfl⟩

/-- At the last cell of the grid. -/
theorem witness_FrameShowsItsOwnTtyput : ∃ s : State, s.port = [] ∧ s.phase = .poll ∧ s.halted = false ∧
    s.polls.head? ≠ some true ∧ s.guest = [.softInt 0x10] ∧ s.ah = 0x0E ∧ s.fault = .none ∧ s.fontOk = true ∧
    s.glyphs = some tfGlyphs ∧ s.curCol.toNat < 80 ∧ s.curRow.toNat < 25 :=
  ⟨{ running .poll with guest := [.softInt 0x10], acc := 0x0E41, curCol := 79, curRow := 24 },
    rfl, rfl, rfl, by decide, rfl, by decide, rfl, rfl, rfl, by decide, by decide⟩

/-- The three clauses in turn: into the first frame, a startup fault, an ended run that goes on (a command still
waits at the port). -/
theorem witness_FramesStartOnlyAfterStartup :
    (∃ t : State, step (running .startup) = .next t ∧ (running .startup).phase.inFrame = false ∧
      t.phase.inFrame = true) ∧
    (faulty.port = [] ∧ faulty.phase = .startup ∧ faulty.fault ≠ .none) ∧
    ∃ s t : State, s.phase = .ended .shutdown ∧ step s = .next t :=
  ⟨⟨_, rfl, rfl, rfl⟩, ⟨rfl, rfl, by decide⟩,
    (running (.ended .shutdown)).setPort [⟨0x02000041, []⟩], _, rfl, rfl⟩

/-- The two clauses in turn: a device that qualifies after one that does not, its sector copied to the last place
inside memory; a device that does not. -/
theorem witness_BootSelectionCopiesTheSector :
    (∃ s : State, s.port = [] ∧ s.phase = .startup ∧ s.fault = .none ∧ s.bootDone = false ∧
      s.startup = [.boot [[], bootSector] 0xFFE00]) ∧
    ¬(([] : List Byte)[510]? = some 0x55#8 ∧ ([] : List Byte)[511]? = some 0xAA#8) ∧
    bootSector[510]? = some 0x55#8 ∧ bootSector[511]? = some 0xAA#8 ∧ 0xFFE00 + 512 ≤ 1048576 :=
  ⟨⟨{ State.reset with startup := [.boot [[], bootSector] 0xFFE00] }, rfl, rfl, rfl, rfl, rfl⟩,
    by simp, by decide +kernel, by decide +kernel, by decide⟩

theorem fontVerdict_tf : ∃ g, fontVerdict defaultConfig false tf = .load g :=
  ⟨_, fontVerdict_load defaultConfig 0x00 _ (by decide) (by simp)⟩

theorem both_orders_reach_frame_one (l vs : List Byte) (ds : List (List Byte)) (loc : Nat) (g : GlyphTable)
    (hg : fontVerdict defaultConfig false l = .load g)
    (hb : ∀ s : State, bootSelection ds loc s =
      .next { s with mem := s.mem.writeBytes loc vs, bootDone := true }) :
    (∃ t, Host.Core.run Sys2Proof.core 3 { State.reset with startup := [.font l, .boot ds loc] } = .next t ∧
      t.phase = .poll) ∧
    ∃ t, Host.Core.run Sys2Proof.core 3 { State.reset with startup := [.boot ds loc, .font l] } = .next t ∧
      t.phase = .poll := by
  have hf : ∀ s : State, s.cfg = defaultConfig → s.fontOk = false → s.stream = l →
      loadFont s = .next (s.setGlyphs g) := fun s h1 h2 h3 => loadFont_of_load (by rw [h1, h2, h3]; exact hg)
  have a1 : step { State.reset with startup := [.font l, .boot ds loc] } =
      .next (({ State.reset with startup := [.boot ds loc] }.setStream l).setGlyphs g) := hf _ rfl rfl rfl
  have a2 : step (({ State.reset with startup := [.boot ds loc] }.setStream l).setGlyphs g) =
      .next { ({ State.reset with startup := [] }.setStream l).setGlyphs g with
        mem := Memory.writeBytes [] loc vs, bootDone := true } := hb _
  have b1 : step { State.reset with startup := [.boot ds loc, .font l] } =
      .next { State.reset with
        startup := [.font l], mem := Memory.writeBytes [] loc vs, bootDone := true } := hb _
  have b2 : step { State.reset with
        startup := [.font l], mem := Memory.writeBytes [] loc vs, bootDone := true } =
      .next (({ State.reset with
        startup := [], mem := Memory.writeBytes [] loc vs, bootDone := true }.setStream l).setGlyphs g) :=
    hf _ rfl rfl rfl
  exact ⟨⟨_, (run_succ_of_next 2 a1).trans ((run_succ_of_next 1 a2).trans (run_succ_of_next 0 rfl)), rfl⟩,
    ⟨_, (run_succ_of_next 2 b1).trans ((run_succ_of_next 1 b2).trans (run_succ_of_next 0 rfl)), rfl⟩⟩

/-- From reset both orders reach frame 1 with TF and a good sector; a font and devices that both fail. -/
theorem witness_StartupOrderIsFree :
    (State.reset.port = [] ∧ State.reset.phase = .startup ∧ State.reset.fault = .none ∧
      State.reset.fontOk = false ∧ State.reset.bootDone = false) ∧
    (∃ t, Host.Core.run Sys2Proof.core 3 { State.reset with startup := [.font tf, .boot [bootSector] 0x7C00] } =
      .next t ∧ t.phase = .poll) ∧
    (∃ t, Host.Core.run Sys2Proof.core 3 { State.reset with startup := [.boot [bootSector] 0x7C00, .font tf] } =
      .next t ∧ t.phase = .poll) ∧
    (∀ g, fontVerdict State.reset.cfg false [] ≠ .load g) ∧ ∀ d ∈ [([] : List Byte)], qualifiesForBoot d = false := by
  obtain ⟨g, hg⟩ := fontVerdict_tf
  obtain ⟨h1, h2⟩ := both_orders_reach_frame_one tf _ [bootSector] 0x7C00 g hg boot_sector
  exact ⟨⟨rfl, rfl, rfl, rfl, rfl⟩, h1, h2, fun _ h => (by cases h), by decide⟩

theorem witness_PresentHandsOverTheFrame : (running .present).port = [] ∧ (running .present).phase = .present :=
  ⟨rfl, rfl⟩

end Sys2Proof.Tests
end

section
/-! SUPPORT. Proofs of the statements about the state: what every step keeps, and the fields of STATUS and of the
accumulator. First the equations of a step, then one frame lemma per inversion lemma of the laws, then the rules by
which each update of the state keeps the invariant. -/

namespace Sys2Proof.Machine

/-! ## Equations of a command and of a step -/

theorem runCommand_of_decode {w : Word} {i : Instr} (h : decode w = .ok i) (s : State) :
    runCommand w s = exec i s := by simp [runCommand, h]

theorem step_of_port {s : State} {c : Command} {rest : List Command} (h : s.port = c :: rest) :
    step s = runCommand c.word ((s.setPort rest).setStream c.stream) := by simp [step, h, portStep]

theorem step_of_execute {s : State} (hp : s.port = []) (hq : s.phase = .execute) : step s = executeStep s := by
  simp [step, sequencerStep, hp, hq]

/-- Decoding the word of a command gives the command back (30_encoding.md R71, R73). -/
theorem decode_encode (i : Instr) : decode (encode i) = .ok i := by
  cases i with
  | fontload => decide
  | ttyput c => revert c; decide
  | compose => decide

/-! ## STATUS and the accumulator (10_state.md R20, R24) -/

theorem faulted_eq_bne (s : State) : s.faulted = (s.fault != .none) := by
  simp [State.faulted, bne, beq_eq_decide]

theorem low8_withAl (acc : BitVec 32) (v : Byte) : (withAl acc v).extractLsb' 0 8 = v :=
  BitVec.extractLsb'_append_eq_right

theorem high24_withAl (acc : BitVec 32) (v : Byte) :
    (withAl acc v).extractLsb' 8 24 = acc.extractLsb' 8 24 :=
  BitVec.extractLsb'_append_eq_left

theorem low8_withAh (acc : BitVec 32) (v : Byte) :
    (withAh acc v).extractLsb' 0 8 = acc.extractLsb' 0 8 :=
  BitVec.extractLsb'_append_eq_right

theorem mid8_withAh (acc : BitVec 32) (v : Byte) : (withAh acc v).extractLsb' 8 8 = v :=
  (BitVec.extractLsb'_append_eq_of_le (Nat.le_refl 8)).trans BitVec.extractLsb'_append_eq_right

theorem high16_withAh (acc : BitVec 32) (v : Byte) :
    (withAh acc v).extractLsb' 16 16 = acc.extractLsb' 16 16 :=
  (BitVec.extractLsb'_append_eq_of_le (by decide : 8 ≤ 16)).trans BitVec.extractLsb'_append_eq_left

/-! ## What TTYPUT's advance leaves unchanged -/

@[simp] theorem advanceCursor_fontOk (s : State) : (advanceCursor s).fontOk = s.fontOk := by
  rw [advanceCursor_frame]

@[simp] theorem advanceCursor_glyphs (s : State) : (advanceCursor s).glyphs = s.glyphs := by
  rw [advanceCursor_frame]

@[simp] theorem advanceCursor_fbValid (s : State) : (advanceCursor s).fbValid = s.fbValid := by
  rw [advanceCursor_frame]

@[simp] theorem advanceCursor_fb (s : State) : (advanceCursor s).fb = s.fb := by
  rw [advanceCursor_frame]

@[simp] theorem advanceCursor_phase (s : State) : (advanceCursor s).phase = s.phase := by
  rw [advanceCursor_frame]

@[simp] theorem advanceCursor_bootDone (s : State) : (advanceCursor s).bootDone = s.bootDone := by
  rw [advanceCursor_frame]

/-! ## Which command writes the frame buffer, memory and the cursor -/

/-- Memory and the cursor are the same in both states. -/
def SameMemoryAndCursor (s t : State) : Prop := t.mem = s.mem ∧ t.curCol = s.curCol ∧ t.curRow = s.curRow

/-- A command writes the frame buffer only as a COMPOSE on an active block (10_state.md R32). -/
theorem CommandEffect.composes_or_keeps_fb {w : Word} {s t : State} (h : CommandEffect w s t) :
    (s.fault = .none ∧ decode w = .ok .compose) ∨ t.fb = s.fb := by
  cases h with
  | composed g hs hw => exact .inl ⟨hs, hw⟩
  | _ => exact .inr (by simp)

/-- A command writes memory or moves the cursor only as a TTYPUT (10_state.md R27, 20_memory.md R62). -/
theorem CommandEffect.types_or_keeps {w : Word} {s t : State} (h : CommandEffect w s t) :
    (∃ c, decode w = .ok (.ttyput c)) ∨ SameMemoryAndCursor s t := by
  cases h with
  | typed c _ hw => exact .inl ⟨c, hw⟩
  | _ => exact .inr ⟨rfl, rfl, rfl⟩

theorem CommandEffect.cfg_eq {w : Word} {s t : State} (h : CommandEffect w s t) : t.cfg = s.cfg := h.outside.1

/-- The word of a command other than COMPOSE leaves the frame buffer. -/
theorem CommandEffect.fb_eq_of_encode {i : Instr} {s t : State} (h : CommandEffect (encode i) s t)
    (hi : i ≠ .compose) : t.fb = s.fb := by
  rcases h.composes_or_keeps_fb with ⟨_, hw⟩ | hfb
  · rw [decode_encode] at hw; cases hw; exact absurd rfl hi
  · exact hfb

/-- The word of a command other than TTYPUT leaves memory and the cursor. -/
theorem CommandEffect.sameMemoryAndCursor_of_encode {i : Instr} {s t : State}
    (h : CommandEffect (encode i) s t) (hi : ∀ c, i ≠ .ttyput c) : SameMemoryAndCursor s t := by
  rcases h.types_or_keeps with ⟨c, hw⟩ | hs
  · rw [decode_encode] at hw; cases hw; exact absurd rfl (hi c)
  · exact hs

/-- Boot selection leaves the parameters, the frame buffer and the cursor. -/
theorem bootSelection_keeps {ds : List (List Byte)} {l : Nat} {s t : State}
    (h : bootSelection ds l s = .next t) :
    t.cfg = s.cfg ∧ t.fb = s.fb ∧ t.curCol = s.curCol ∧ t.curRow = s.curRow := by
  rcases bootSelection_cases h with rfl | ⟨d, _, _, _, rfl⟩ <;> exact ⟨rfl, rfl, rfl, rfl⟩

/-- A step of startup leaves the parameters, the frame buffer and the cursor, and memory too unless the next event is
boot selection (70_reset_and_hazards.md R203). -/
theorem startupStep_keeps {s t : State} (h : startupStep s = .next t) :
    t.cfg = s.cfg ∧ t.fb = s.fb ∧ t.curCol = s.curCol ∧ t.curRow = s.curRow ∧
      (t.mem = s.mem ∨ ∃ ds l rest, s.startup = .boot ds l :: rest) := by
  rcases startupStep_cases h with
    ⟨_, rfl⟩ | ⟨_, _, _, rfl⟩ | ⟨_, _, rfl⟩ | ⟨l, rest, _, _, hc⟩ | ⟨ds, l, rest, _, hs, hb⟩
  · exact ⟨rfl, rfl, rfl, rfl, .inl rfl⟩
  · exact ⟨rfl, rfl, rfl, rfl, .inl rfl⟩
  · exact ⟨rfl, rfl, rfl, rfl, .inl rfl⟩
  · obtain ⟨hm, hcol, hrow⟩ := hc.sameMemoryAndCursor_of_encode nofun
    exact ⟨hc.cfg_eq, hc.fb_eq_of_encode nofun, hcol, hrow, .inl hm⟩
  · obtain ⟨hcfg, hfb, hcol, hrow⟩ := bootSelection_keeps hb
    exact ⟨hcfg, hfb, hcol, hrow, .inr ⟨ds, l, rest, hs⟩⟩

/-- Step 2 of a frame leaves the parameters and the frame buffer, and memory and the cursor too unless the instruction
is INT 0x10 with AH = 0x0E (41_teletype.md R120, R121). -/
theorem GuestEffect.keeps {a : GuestAction} {s t : State} (h : GuestEffect a s t) :
    t.cfg = s.cfg ∧ t.fb = s.fb ∧
      ((a = .softInt videoVector ∧ s.ah = teletypeService) ∨ SameMemoryAndCursor s t) := by
  cases h with
  | typed _ ha hs hc => exact ⟨hc.cfg_eq, hc.fb_eq_of_encode nofun, .inl ⟨ha, hs⟩⟩
  | _ => exact ⟨rfl, rfl, .inr ⟨rfl, rfl, rfl⟩⟩

/-! ## Every update keeps the invariant

First the updates of fields the invariant does not speak of, then those it has a condition on, then what a command,
boot selection, startup, an instruction of the executor and a whole step do, which is built from them. -/

theorem State.Inv.resetWith (cfg : Config) : (State.resetWith cfg).Inv where
  memWf := Memory.wf_nil
  cursorCol := (by decide : (0 : Byte).toNat < 80)
  cursorRow := (by decide : (0 : Byte).toNat < 25)
  fontTable := rfl
  validNeedsFont := nofun
  frameAtReset _ := rfl
  framesStarted := nofun

section
variable {s : State} (hi : s.Inv)
include hi

theorem State.Inv.setPort (l : List Command) : (s.setPort l).Inv := { hi with }

theorem State.Inv.setStream (l : List Byte) : (s.setStream l).Inv := { hi with }

theorem State.Inv.setAcc (v : BitVec 32) : (s.setAcc v).Inv := { hi with }

theorem State.Inv.raiseFault (k : FaultCode) : (s.raiseFault k).Inv := { hi with }

theorem State.Inv.raiseUnsupportedFont : s.raiseUnsupportedFont.Inv := { hi with }

theorem State.Inv.withStartup (l : List StartupEvent) : State.Inv { s with startup := l } := { hi with }

theorem State.Inv.withPolls (l : List Bool) : State.Inv { s with polls := l } := { hi with }

theorem State.Inv.withGuest (l : List GuestAction) : State.Inv { s with guest := l } := { hi with }

theorem State.Inv.withHalted (b : Bool) : State.Inv { s with halted := b } := { hi with }

theorem State.Inv.withPresented (f : Option FrameBuffer) : State.Inv { s with presented := f } := { hi with }

theorem State.Inv.setMem {m : Memory} (hm : m.wf) : (s.setMem m).Inv := { hi with memWf := hm }

theorem State.Inv.setGlyphs (g : GlyphTable) : (s.setGlyphs g).Inv :=
  { hi with
    fontTable := rfl
    validNeedsFont := fun _ => rfl
    framesStarted := fun hp => ⟨rfl, (hi.framesStarted hp).2⟩ }

theorem State.Inv.setFrame (f : FrameBuffer) (hf : s.fontOk = true) : (s.setFrame f).Inv :=
  { hi with validNeedsFont := fun _ => hf, frameAtReset := nofun }

/-- The sequencer goes into a frame only with startup complete (70_reset_and_hazards.md R205). -/
theorem State.Inv.setPhase {p : Phase} (hp : p.inFrame = true → s.fontOk = true ∧ s.bootDone = true) :
    (s.setPhase p).Inv := { hi with framesStarted := hp }

/-- Inside a frame the sequencer may go anywhere: startup is complete there. -/
theorem State.Inv.setPhase_of_inFrame (p : Phase) (hq : s.phase.inFrame = true) : (s.setPhase p).Inv :=
  hi.setPhase fun _ => hi.framesStarted hq

theorem State.Inv.advanceCursor : (advanceCursor s).Inv where
  memWf := advanceCursor_wf hi.memWf
  cursorCol := (advanceCursor_legal hi.cursorCol hi.cursorRow).1
  cursorRow := (advanceCursor_legal hi.cursorCol hi.cursorRow).2
  fontTable := by simpa using hi.fontTable
  validNeedsFont := by simpa using hi.validNeedsFont
  frameAtReset := by simpa using hi.frameAtReset
  framesStarted := by simpa using hi.framesStarted

/-- The two stores of TTYPUT are inside PhysicalMemory (20_memory.md R63). -/
theorem State.Inv.writeCell_cursor (c : Cell) : (writeCell s.mem s.cursorAddress c).wf := by
  obtain ⟨_, hlast⟩ := cellAddress_in_window s.cfg hi.cursorCol hi.cursorRow
  exact writeCell_wf hi.memWf (hlast.trans_le (window_in_memory s.cfg)) c

theorem State.Inv.bootCopy {l : Nat} (d : List Byte) (hl : l + 512 ≤ memSize) :
    State.Inv { s with mem := s.mem.writeBytes l (d.take 512), bootDone := true } := by
  have hlen : (d.take 512).length ≤ 512 := List.length_take_le 512 d
  exact { hi with
    memWf := Memory.writeBytes_wf _ hi.memWf (by omega)
    framesStarted := fun hp => ⟨(hi.framesStarted hp).1, rfl⟩ }

theorem State.Inv.command {w : Word} {t : State} (h : CommandEffect w s t) : t.Inv := by
  cases h with
  | ignored => exact hi
  | raised k => exact hi.raiseFault k
  | unsupported => exact hi.raiseUnsupportedFont
  | loaded g => exact hi.setGlyphs g
  | typed c => exact (hi.setMem (hi.writeCell_cursor _)).advanceCursor
  | composed g _ _ hf => exact hi.setFrame _ hf

theorem State.Inv.bootSelection {ds : List (List Byte)} {l : Nat} {t : State}
    (h : bootSelection ds l s = .next t) : t.Inv := by
  rcases bootSelection_cases h with rfl | ⟨d, _, _, hl, rfl⟩
  · exact hi.setPhase nofun
  · exact hi.bootCopy d hl

theorem State.Inv.startupStep {t : State} (h : startupStep s = .next t) : t.Inv := by
  rcases startupStep_cases h with
    ⟨_, rfl⟩ | ⟨_, hf, hb, rfl⟩ | ⟨_, _, rfl⟩ | ⟨l, rest, _, _, hc⟩ | ⟨ds, l, rest, _, _, hb⟩
  · exact hi.setPhase nofun
  · exact hi.setPhase fun _ => ⟨hf, hb⟩
  · exact hi
  · exact ((hi.withStartup rest).setStream l).command hc
  · exact (hi.withStartup rest).bootSelection hb

theorem State.Inv.guest {a : GuestAction} {t : State} (h : GuestEffect a s t) : t.Inv := by
  cases h with
  | nothing => exact hi
  | typed _ _ _ hc => exact hi.command hc
  | moved v => exact hi.setAcc v
  | halted => exact hi.withHalted true
  | failed => exact hi.setPhase nofun

theorem State.Inv.step {t : State} (h : StepEffect s t) : t.Inv := by
  cases h with
  | command c rest _ _ hc => exact ((hi.setPort rest).setStream c.stream).command hc
  | startup _ _ _ hs => exact hi.startupStep hs
  | shutdown => exact (hi.withPolls _).setPhase nofun
  | polled p _ hq => exact (hi.withPolls _).setPhase_of_inFrame p (congrArg Phase.inFrame hq)
  | executed a rest _ _ hq _ hg =>
    exact ((hi.withGuest rest).setPhase_of_inFrame _ (congrArg Phase.inFrame hq)).guest hg
  | composed _ _ hq hc => exact (hi.setPhase_of_inFrame _ (congrArg Phase.inFrame hq)).command hc
  | presented _ hq => exact (hi.withPresented _).setPhase_of_inFrame _ (congrArg Phase.inFrame hq)

end

/-! ## The statements of 10_state.md -/

/-- Settles O39: every form a step can take is built from updates that keep the invariant. -/
theorem stepKeepsTheInvariant : Obligations.StepKeepsTheInvariant :=
  fun _ _ hi h => hi.step (step_cases h)

/-- Settles O41: the only writer of the frame buffer is a COMPOSE word, which comes from the port or is the
sequencer's own in step 3. -/
theorem onlyComposeWritesTheFrame : Obligations.OnlyComposeWritesTheFrame := by
  intro s t h hne
  cases step_cases h with
  | command c rest _ hp hc =>
    obtain ⟨hf, hw⟩ := hc.composes_or_keeps_fb.resolve_right hne
    exact ⟨hf, .inl ⟨c, rest, hp, hw⟩⟩
  | startup _ _ _ hs =>
    obtain ⟨_, hfb, _⟩ := startupStep_keeps hs
    exact absurd hfb hne
  | executed a rest _ _ _ _ hg =>
    obtain ⟨_, hfb, _⟩ := hg.keeps
    exact absurd hfb hne
  | composed _ hp hq hc =>
    obtain ⟨hf, _⟩ := hc.composes_or_keeps_fb.resolve_right hne
    exact ⟨hf, .inr ⟨hp, hq⟩⟩
  | shutdown | polled | presented => exact absurd rfl hne

/-- Settles O42: memory and the cursor change only by a TTYPUT word, from the port or of INT 0x10, or memory alone
by the boot copy. -/
theorem onlyTtyputWritesWindowAndCursor : Obligations.OnlyTtyputWritesWindowAndCursor := by
  intro s t h hne
  have hchanged : ¬SameMemoryAndCursor s t := fun ⟨hm, hcol, hrow⟩ => by simp [hm, hcol, hrow] at hne
  cases step_cases h with
  | command c rest _ hp hc =>
    obtain ⟨b, hw⟩ := hc.types_or_keeps.resolve_right hchanged
    exact .inl ⟨c, rest, b, hp, hw⟩
  | startup _ hp hq hs =>
    obtain ⟨_, _, hcol, hrow, hmem⟩ := startupStep_keeps hs
    exact .inr (.inr ⟨hp, hq, hcol, hrow, hmem.resolve_left fun hm => hchanged ⟨hm, hcol, hrow⟩⟩)
  | executed a rest _ hp hq ha hg =>
    obtain ⟨_, _, htyped⟩ := hg.keeps
    obtain ⟨rfl, hah⟩ := htyped.resolve_right hchanged
    exact .inr (.inl ⟨hp, hq, hah, rest, ha⟩)
  | composed _ _ _ hc => exact absurd (hc.sameMemoryAndCursor_of_encode nofun) hchanged
  | shutdown | polled | presented => exact absurd ⟨rfl, rfl, rfl⟩ hchanged

/-- No step writes a parameter (10_state.md R35). -/
theorem StepEffect.cfg_eq {s t : State} (h : StepEffect s t) : t.cfg = s.cfg := by
  cases h with
  | command _ _ _ _ hc => exact hc.cfg_eq
  | startup _ _ _ hs => exact (startupStep_keeps hs).1
  | executed _ _ _ _ _ _ hg => exact hg.keeps.1
  | composed _ _ _ hc => exact hc.cfg_eq
  | shutdown | polled | presented => rfl

/-- Settles O40: a palette entry is a function of the parameters, and no step writes those. -/
theorem paletteIsReadOnly : Obligations.PaletteIsReadOnly := by
  intro s t h
  have hcfg : t.cfg = s.cfg := (step_cases h).cfg_eq
  exact ⟨hcfg, fun i => by rw [hcfg]⟩

/-- Settles O44: the step is the executor's arm of the instruction, and withAl and withAh keep the other bits. -/
theorem guestMovesAndHalt : Obligations.GuestMovesAndHalt := by
  intro s rest hp hq
  rw [step_of_execute hp hq, executeStep]
  refine ⟨fun v hg => ?_, fun v hg => ?_, fun v hg => ?_, fun hg => ?_⟩ <;> rw [hg]
  · exact ⟨_, rfl, low8_withAl _ v, high24_withAl _ v, rfl⟩
  · exact ⟨_, rfl, mid8_withAh _ v, low8_withAh _ v, high16_withAh _ v, rfl⟩
  · rfl
  · rfl

/-- Settles O6: the step takes the command off the port, and its word runs the command it decodes to. -/
theorem stepRunsTheDecodedCommand : Obligations.StepRunsTheDecodedCommand := by
  intro s c rest i hp hw
  rw [step_of_port hp, runCommand_of_decode hw]
  rfl

/-- Settles O7: taking the placed command off the port gives back the state it was placed in. -/
theorem fetchWordIsRunNext : Obligations.FetchWordIsRunNext := by
  intro s w hw
  have hport : (s.withFetchWord 32 w).port = ⟨BitVec.ofNat 32 w, s.stream⟩ :: s.port := by
    rw [State.withFetchWord, Nat.mod_eq_of_lt hw]; rfl
  rw [step_of_port hport]
  rfl

/-- Settles O12: STATUS is its fields put side by side, so a field is read by passing those below it. -/
theorem statusFieldsInPlace : Obligations.StatusFieldsInPlace := by
  intro s
  unfold State.status
  refine ⟨?fontOk, ?faulted, ?fbValid, ?bit3, ?fault, ?curCol, ?curRow, ?high⟩
  case fontOk | fbValid | bit3 => simp only [BitVec.getLsbD_append]; simp
  case faulted => rw [← faulted_eq_bne]; simp only [BitVec.getLsbD_append]; simp
  case fault | curCol | curRow =>
    simp (disch := omega) only [BitVec.extractLsb'_append_eq_of_le]
    exact BitVec.extractLsb'_append_eq_right
  case high =>
    simp (disch := omega) only [BitVec.extractLsb'_append_eq_of_le]
    rfl

/-- Settles O27: the legality check of TTYPUT fails where one coordinate is off the grid. -/
theorem ttyputStopsOffTheGrid : Obligations.TtyputStopsOffTheGrid := by
  intro s c hf hoff
  have hl : ¬s.cursorLegal = true := by rw [cursorLegal_iff]; omega
  rw [exec_ttyput c hf, teletype, if_neg hl]

/-- Settles O30: COMPOSE passes its FONT_OK check and finds no table. -/
theorem composeStopsWithoutTable : Obligations.ComposeStopsWithoutTable := by
  intro s hf hok hg
  rw [exec_compose hf]
  simp [composeFrame, hok, hg]

/-- Settles O35, by evaluating the sixteen entries. -/
theorem defaultPalettePixels : Obligations.DefaultPalettePixels := by
  unfold Obligations.DefaultPalettePixels
  decide

/-- Settles O38: every clause reads fields that reset sets, whatever the parameters. -/
theorem invariantAtReset : Obligations.InvariantAtReset := State.Inv.resetWith

end Sys2Proof.Machine
end

section
/-! SUPPORT. Proofs of the statements about the encoding: the fields of a command word, decoder and encoder as
inverses of each other, the rows of the opcode table, and the bytes of a packed pixel in the frame buffer. -/

namespace Sys2Proof.Machine

/-! ## The fields of a command word (30_encoding.md R71) -/

/-- OP, RSV and IMM8 are all of the word. -/
theorem fields_append (w : Word) : opField w ++ rsvField w ++ immField w = w := by
  simp only [opField, rsvField, immField]
  rw [BitVec.extractLsb'_append_extractLsb'_eq_extractLsb' (by decide),
    BitVec.extractLsb'_append_extractLsb'_eq_extractLsb' (by decide)]
  exact BitVec.extractLsb'_eq_self

theorem append_eq_of_fields {w : Word} {op : BitVec 8} {rsv : BitVec 16} {imm : Byte} (hop : opField w = op)
    (hrsv : rsvField w = rsv) (himm : immField w = imm) : op ++ rsv ++ imm = w := by
  subst hop hrsv himm
  exact fields_append w

/-! ## Decoder and encoder -/

/-- A word that decodes is its command's encoding: below the two checks RSV is 0, and only a TTYPUT leaves IMM8 open
(30_encoding.md R72). -/
theorem encode_of_decode {w : Word} {i : Instr} (h : decode w = .ok i) : encode i = w := by
  unfold decode at h
  split_ifs at h with hop hset hop₁ hop₂
  all_goals
    cases h
    simp only [not_or, not_and, not_not] at hop hset
    obtain ⟨hrsv, himm⟩ := hset
  · exact append_eq_of_fields hop₁ hrsv (himm (by simp [hop₁]))
  · exact append_eq_of_fields hop₂ hrsv rfl
  · exact append_eq_of_fields (hop hop₁ hop₂) hrsv (himm hop₂)

theorem decode_eq_ok_iff {w : Word} {i : Instr} : decode w = .ok i ↔ encode i = w :=
  ⟨encode_of_decode, fun h => h ▸ decode_encode i⟩

/-- An active block raises the fault of a word that selects no command (30_encoding.md R74). -/
theorem runCommand_of_decode_error {w : Word} {f : DecodeFault} (h : decode w = .error f) {s : State}
    (hs : s.fault = .none) : runCommand w s = .next (s.raiseFault (decodeFaultCode f)) := by
  rw [runCommand, h]
  exact unlessQuiescent_of_none _ hs

/-! ## The rows of the opcode table -/

/-- The word of a command fits its own row of the table and no other. -/
theorem length_rows_fitting_encode (i : Instr) : (opcodeTable.filter fun r => r.fits (encode i)).length = 1 := by
  cases i with
  | fontload => decide
  | ttyput c =>
    obtain ⟨_, hfits⟩ := Laws.EncodesToItsRow.ttyput c
    rw [opcodeTable, List.filter_cons_of_neg, List.filter_cons_of_pos, List.filter_cons_of_neg]
    · rfl
    · exact (hfits 2 _ rfl).not.2 nofun
    · exact (hfits 1 _ rfl).2 rfl
    · exact (hfits 0 _ rfl).not.2 nofun
  | compose => decide

/-- A word that fits a row of the table is the word of that row's command. -/
theorem exists_encode_of_fits {r : OpcodeRow} {w : Word} (hr : r ∈ opcodeTable) (h : r.fits w = true) :
    ∃ i, encode i = w := by
  have hw : w &&& r.mask = r.pattern := eq_of_beq h
  simp only [opcodeTable, List.mem_cons, List.not_mem_nil, or_false] at hr
  rcases hr with rfl | rfl | rfl
  · exact ⟨.fontload, hw.symm.trans BitVec.and_allOnes⟩
  · have hop : opField w &&& opField 0xFFFFFF00 = opField 0x02000000 :=
      BitVec.extractLsb'_and.symm.trans (congrArg opField hw)
    have hrsv : rsvField w &&& rsvField 0xFFFFFF00 = rsvField 0x02000000 :=
      BitVec.extractLsb'_and.symm.trans (congrArg rsvField hw)
    exact ⟨.ttyput (immField w), append_eq_of_fields (BitVec.and_allOnes.symm.trans hop)
      (BitVec.and_allOnes.symm.trans hrsv) rfl⟩
  · exact ⟨.compose, hw.symm.trans BitVec.and_allOnes⟩

/-- An append is the or of its parts, the upper one shifted into place. -/
theorem encode_ttyput_eq_or (c : Byte) : encode (.ttyput c) = 0x02000000#32 ||| c.setWidth 32 := rfl

/-! ## The bytes of a pixel -/

/-- Byte k of pixel (x, y) of the frame buffer (30_encoding.md R84). -/
theorem fbByte_of_pixel (f : FrameBuffer) (x : Fin 640) (y : Fin 400) {o : Fin 1024000} {k : Nat} (hk : k < 4)
    (ho : o.val = 4 * (y.val * 640 + x.val) + k) :
    fbByte f o = ((f[y.val])[x.val]).extractLsb' (8 * k) 8 := by
  have hx := x.isLt
  have hrow : o.val / 4 / 640 = y.val := by omega
  have hcol : o.val / 4 % 640 = x.val := by omega
  have hbyte : o.val % 4 = k := by omega
  simp only [fbByte, fbPixel, hrow, hcol, hbyte]

/-- The bytes of a pixel under any layout, byte 0 the least significant (30_encoding.md R83). -/
theorem bytes_packPixel (l : PixelLayout) (c : Rgb) :
    (packPixel l c).extractLsb' 0 8 = channelValue l c l.byte0 ∧
      (packPixel l c).extractLsb' 8 8 = channelValue l c l.byte1 ∧
      (packPixel l c).extractLsb' 16 8 = channelValue l c l.byte2 ∧
      (packPixel l c).extractLsb' 24 8 = channelValue l c l.byte3 := by
  unfold packPixel
  refine ⟨?byte0, ?byte1, ?byte2, ?byte3⟩
  case byte0 => exact BitVec.extractLsb'_append_eq_right
  case byte1 =>
    rw [BitVec.extractLsb'_append_eq_of_le (by decide)]
    exact BitVec.extractLsb'_append_eq_right
  case byte2 =>
    rw [BitVec.extractLsb'_append_eq_of_le (by decide), BitVec.extractLsb'_append_eq_of_le (by decide)]
    exact BitVec.extractLsb'_append_eq_right
  case byte3 =>
    rw [BitVec.extractLsb'_append_eq_of_le (by decide), BitVec.extractLsb'_append_eq_of_le (by decide)]
    exact BitVec.extractLsb'_append_eq_left

/-! ## The statements of 30_encoding.md -/

/-- Settles O2: the lemma decode_encode, one case per command. -/
theorem decodeInvertsEncode : Obligations.DecodeInvertsEncode := decode_encode

/-- Settles O3: the checks the decoder made give every field of the word but a TTYPUT's IMM8, which it hands on. -/
theorem decodedWordIsItsEncoding : Obligations.DecodedWordIsItsEncoding := fun _ _ =>
  decode_eq_ok_iff.1

/-- Settles O4: to decode, to be the word of a command and to fit one row are the same. -/
theorem decodesExactlyTableWords : Obligations.DecodesExactlyTableWords := by
  intro w
  constructor
  · rintro ⟨i, h⟩
    rw [← decode_eq_ok_iff.1 h]
    exact length_rows_fitting_encode i
  · intro h
    obtain ⟨r, hr⟩ := List.exists_mem_of_length_pos (h ▸ Nat.one_pos)
    obtain ⟨hmem, hfits⟩ := List.mem_filter.1 hr
    obtain ⟨i, hi⟩ := exists_encode_of_fits hmem hfits
    exact ⟨i, decode_eq_ok_iff.2 hi⟩

/-- Settles O5: an active block follows the decoder's checks in their order, and raises the fault of the one that
fails. -/
theorem decodeProcedure : Obligations.DecodeProcedure := by
  intro w s
  by_cases hs : s.fault = .none
  · rw [if_neg (not_not_intro hs)]
    split_ifs with hop hset hop₁ hop₂
    · exact runCommand_of_decode_error (if_pos hop) hs
    · exact runCommand_of_decode_error ((if_neg hop).trans (if_pos hset)) hs
    · exact runCommand_of_decode ((if_neg hop).trans ((if_neg hset).trans (if_pos hop₁))) s
    · exact runCommand_of_decode
        ((if_neg hop).trans ((if_neg hset).trans ((if_neg hop₁).trans (if_pos hop₂)))) s
    · exact runCommand_of_decode
        ((if_neg hop).trans ((if_neg hset).trans ((if_neg hop₁).trans (if_neg hop₂)))) s
  · rw [if_pos hs, runCommand_of_fault w hs]

/-- Settles O36: the byte offset gives the pixel and the byte of it, and the layout the channel. -/
theorem frameBytesAreRgba : Obligations.FrameBytesAreRgba := by
  intro f x y c hp o
  obtain ⟨h0, h1, h2, h3⟩ := bytes_packPixel rgbaLayout c
  refine ⟨fun ho => ?_, fun ho => ?_, fun ho => ?_, fun ho => ?_⟩
  · rw [fbByte_of_pixel f x y (k := 0) (by decide) ho, hp]; exact h0
  · rw [fbByte_of_pixel f x y (k := 1) (by decide) ho, hp]; exact h1
  · rw [fbByte_of_pixel f x y (k := 2) (by decide) ho, hp]; exact h2
  · rw [fbByte_of_pixel f x y (k := 3) (by decide) ho, hp]; exact h3

/-- Settles O53: each command of the expansion is a TTYPUT, whose word is 0x02000000 | c. -/
theorem pseudoInstructionWords : Obligations.PseudoInstructionWords := by
  refine ⟨fun text => ?_, fun n c => ?_⟩
  · rw [expandPuts, List.map_map]
    exact List.map_congr_left fun c _ => encode_ttyput_eq_or c
  · rw [expandFill, List.map_replicate, encode_ttyput_eq_or]

/-- Settles O1, by evaluating the decoder on the eleven words. -/
theorem specWordsDecode : Obligations.SpecWordsDecode := by
  unfold Obligations.SpecWordsDecode
  decide

end Sys2Proof.Machine
end

section
/-! SUPPORT. Proofs of the statements about FONTLOAD (40_font_load.md): the verdict on each form of a font stream, what
the verdict depends on, and that no step changes a loaded font. -/

namespace Sys2Proof.Machine

/-! ## The verdict on a font stream, check by check (40_font_load.md R102) -/

/-- A stream that passes the length check of the header, taken apart at the header. -/
theorem exists_header_of_length : ∀ {l : List Byte}, 4 ≤ l.length → ∃ a b mode height glyphBytes,
    l = a :: b :: mode :: height :: glyphBytes
  | [], h | [_], h | [_, _], h | [_, _, _], h => by simp at h
  | a :: b :: mode :: height :: l, _ => ⟨a, b, mode, height, l, rfl⟩

/-- The header of a stream whose first four bytes are given. -/
theorem exists_glyphBytes_of_header {l : List Byte} {a b mode height : Byte} (ha : l[0]? = some a)
    (hb : l[1]? = some b) (hm : l[2]? = some mode) (hh : l[3]? = some height) :
    ∃ glyphBytes, l = a :: b :: mode :: height :: glyphBytes := by
  obtain ⟨hlen, _⟩ := List.getElem?_eq_some_iff.1 hh
  obtain ⟨_, _, _, _, l, rfl⟩ := exists_header_of_length hlen
  cases ha; cases hb; cases hm; cases hh
  exact ⟨l, rfl⟩

theorem fontVerdict_missing (cfg : Config) : fontVerdict cfg false [] = .raise .fontMissing := rfl

theorem fontVerdict_shortHeader (cfg : Config) : ∀ {l : List Byte}, 1 ≤ l.length → l.length ≤ 3 →
    fontVerdict cfg false l = .raise .fontShortHeader
  | [_], _, _ | [_, _], _, _ | [_, _, _], _, _ => rfl

theorem fontVerdict_badMagic (cfg : Config) {a b : Byte} (mode height : Byte) (l : List Byte)
    (h : a ≠ 0x36 ∨ b ≠ 0x04) :
    fontVerdict cfg false (a :: b :: mode :: height :: l) = .raise .fontBadMagic := if_pos h

theorem fontVerdict_badHeight (cfg : Config) (mode : Byte) {height : Byte} (l : List Byte) (h : height ≠ 0x10) :
    fontVerdict cfg false (0x36 :: 0x04 :: mode :: height :: l) = .raise .fontBadHeight := if_pos h

theorem fontVerdict_shortGlyphs (cfg : Config) {mode : Byte} {l : List Byte} (hm : mode ∉ cfg.fontModesRefused)
    (h : l.length < 4096) :
    fontVerdict cfg false (0x36 :: 0x04 :: mode :: 0x10 :: l) = .raise .fontShortGlyphs :=
  (if_neg hm).trans (dif_neg (Nat.not_le.2 h))

/-! ## What the verdict depends on -/

/-- Bytes beyond offset 4099 do not reach the verdict (40_font_load.md R106). -/
theorem fontVerdict_append (cfg : Config) (fontOk : Bool) {l : List Byte} (extra : List Byte)
    (h : 4100 ≤ l.length) : fontVerdict cfg fontOk (l ++ extra) = fontVerdict cfg fontOk l := by
  cases fontOk with
  | true => rw [fontVerdict_reload, fontVerdict_reload]
  | false =>
    obtain ⟨a, b, mode, height, l, rfl⟩ := exists_header_of_length (le_trans (by decide) h)
    have hl : 4096 ≤ l.length := by simpa using h
    have hle : 4096 ≤ (l ++ extra).length := by rw [List.length_append]; exact Nat.le_add_right_of_le hl
    simp only [List.cons_append, fontVerdict, dif_pos hl, dif_pos hle, glyphsOf_append l extra hl]

/-- Where no MODE byte is refused, it does not reach the verdict (40_font_load.md R105). -/
theorem fontVerdict_mode {cfg : Config} (h : cfg.fontModesRefused = []) (fontOk : Bool) (a b mode mode' : Byte)
    (l : List Byte) :
    fontVerdict cfg fontOk (a :: b :: mode :: l) = fontVerdict cfg fontOk (a :: b :: mode' :: l) := by
  cases fontOk with
  | true => rw [fontVerdict_reload, fontVerdict_reload]
  | false =>
    cases l with
    | nil => rfl
    | cons height l => simp only [fontVerdict, h, List.not_mem_nil]

/-! ## FONTLOAD from its verdict -/

/-- On an active block FONTLOAD raises the fault of its verdict and changes nothing else (60_exceptions.md R171). -/
theorem exec_fontload_of_raise {s : State} {k : FaultCode} (hs : s.fault = .none)
    (h : fontVerdict s.cfg s.fontOk s.stream = .raise k) : exec .fontload s = .next (s.raiseFault k) :=
  (exec_fontload hs).trans (loadFont_of_raise h)

/-- The stream reaches FONTLOAD's next state only by the verdict on it, and as the stream in hand. -/
theorem loadFont_setStream {s t : State} {l : List Byte}
    (hv : fontVerdict s.cfg s.fontOk l = fontVerdict s.cfg s.fontOk s.stream) (h : loadFont s = .next t) :
    loadFont (s.setStream l) = .next (t.setStream l) := by
  rcases loadFont_cases h with ⟨k, hk, rfl⟩ | ⟨hu, rfl⟩ | ⟨g, _, hg, rfl⟩
  · exact loadFont_of_raise (hv.trans hk)
  · exact loadFont_of_unsupported (hv.trans hu)
  · exact loadFont_of_load (hv.trans hg)

theorem exec_fontload_setStream {s t : State} {l : List Byte}
    (hv : fontVerdict s.cfg s.fontOk l = fontVerdict s.cfg s.fontOk s.stream) (h : exec .fontload s = .next t) :
    exec .fontload (s.setStream l) = .next (t.setStream l) := by
  rcases unlessQuiescent_cases h with ⟨hs, rfl⟩ | ⟨hs, h⟩
  · exact unlessQuiescent_of_fault _ hs
  · exact (exec_fontload (s := s.setStream l) hs).trans (loadFont_setStream hv h)

/-- FONTLOAD completes in every state, a quiescent one among them. -/
theorem exec_fontload_completes (s : State) : ∃ t, exec .fontload s = .next t := by
  by_cases hs : s.fault = .none
  · rw [exec_fontload hs]
    exact loadFont_next s
  · exact ⟨s, unlessQuiescent_of_fault _ hs⟩

/-! ## No step changes a loaded font (40_font_load.md R110) -/

/-- FONT_OK and the glyph table are the same in both states. -/
def SameFont (s t : State) : Prop := t.fontOk = s.fontOk ∧ t.glyphs = s.glyphs

/-- The one command that writes the font asks for FONT_OK = 0 (40_font_load.md R101). -/
theorem CommandEffect.sameFont {w : Word} {s t : State} (h : CommandEffect w s t) (hf : s.fontOk = true) :
    SameFont s t := by
  cases h with
  | loaded g _ _ hno => exact absurd (hf.symm.trans hno) nofun
  | typed c => exact ⟨advanceCursor_fontOk _, advanceCursor_glyphs _⟩
  | _ => exact ⟨rfl, rfl⟩

theorem bootSelection_sameFont {ds : List (List Byte)} {l : Nat} {s t : State}
    (h : bootSelection ds l s = .next t) : SameFont s t := by
  rcases bootSelection_cases h with rfl | ⟨d, _, _, _, rfl⟩ <;> exact ⟨rfl, rfl⟩

theorem startupStep_sameFont {s t : State} (h : startupStep s = .next t) (hf : s.fontOk = true) :
    SameFont s t := by
  rcases startupStep_cases h with
    ⟨_, rfl⟩ | ⟨_, _, _, rfl⟩ | ⟨_, _, rfl⟩ | ⟨l, rest, _, _, hc⟩ | ⟨ds, l, rest, _, _, hb⟩
  · exact ⟨rfl, rfl⟩
  · exact ⟨rfl, rfl⟩
  · exact ⟨rfl, rfl⟩
  · exact hc.sameFont hf
  · exact bootSelection_sameFont (s := { s with startup := rest }) hb

theorem GuestEffect.sameFont {a : GuestAction} {s t : State} (h : GuestEffect a s t) (hf : s.fontOk = true) :
    SameFont s t := by
  cases h with
  | typed _ _ _ hc => exact hc.sameFont hf
  | _ => exact ⟨rfl, rfl⟩

theorem StepEffect.sameFont {s t : State} (h : StepEffect s t) (hf : s.fontOk = true) : SameFont s t := by
  cases h with
  | command _ _ _ _ hc => exact hc.sameFont hf
  | startup _ _ _ hs => exact startupStep_sameFont hs hf
  | executed _ _ _ _ _ _ hg => exact hg.sameFont hf
  | composed _ _ _ hc => exact hc.sameFont hf
  | shutdown | polled | presented => exact ⟨rfl, rfl⟩

/-! ## The statements of 40_font_load.md -/

/-- Settles O19: of everything a step can do only a FONTLOAD that succeeds writes the font, and it needs
FONT_OK = 0. -/
theorem glyphTableIsImmutable : Obligations.GlyphTableIsImmutable := by
  intro s t hf h
  obtain ⟨hok, hg⟩ := (step_cases h).sameFont hf
  exact ⟨hok.trans hf, hg⟩

/-- Settles O13: the verdict is the table of the bytes after the header, which starts 4 bytes into the stream. -/
theorem fontloadLoadsTheTable : Obligations.FontloadLoadsTheTable := by
  intro s mode hs hf h0 h1 h2 hm h3 hlen
  obtain ⟨l, hl⟩ := exists_glyphBytes_of_header h0 h1 h2 h3
  have hlen : 4096 ≤ l.length := by simpa [hl] using hlen
  have hv : fontVerdict s.cfg s.fontOk s.stream = .load (glyphsOf l hlen) := by
    rw [hf, hl]
    exact fontVerdict_load s.cfg mode l hm hlen
  refine ⟨glyphsOf l hlen, (exec_fontload hs).trans (loadFont_of_load hv), fun c r => ?_⟩
  have hoff : 4 + 16 * c.val + r.val = 16 * c.val + r.val + 4 := by omega
  rw [hl, hoff, getElem_glyphsOf l hlen c r c.isLt r.isLt]
  exact List.getElem?_eq_getElem (l := l) _

/-- Settles O14: one verdict lemma for each check, from the form of stream that fails it. -/
theorem fontloadFaultsInOrder : Obligations.FontloadFaultsInOrder := by
  intro s hs
  refine ⟨fun hf => ?reload, fun hf => ⟨fun hlen => ?missing, fun hpos hlen => ?shortHeader,
    fun hlen hbad => ?badMagic, fun hlen h0 h1 => ⟨fun hbad => ?badHeight, fun mode h2 hm h3 hshort => ?shortGlyphs⟩⟩⟩
  all_goals refine exec_fontload_of_raise hs ?_
  all_goals rw [hf]
  case reload => exact fontVerdict_reload s.cfg s.stream
  case missing =>
    rw [List.eq_nil_of_length_eq_zero hlen]
    exact fontVerdict_missing s.cfg
  case shortHeader => exact fontVerdict_shortHeader s.cfg hpos hlen
  case badMagic =>
    obtain ⟨a, b, mode, height, l, hl⟩ := exists_header_of_length hlen
    rw [hl] at hbad ⊢
    exact fontVerdict_badMagic s.cfg mode height l (by simpa using hbad)
  case badHeight =>
    obtain ⟨a, b, mode, height, l, hl⟩ := exists_header_of_length hlen
    rw [hl] at h0 h1 hbad ⊢
    cases h0; cases h1
    exact fontVerdict_badHeight s.cfg mode l (by simpa using hbad)
  case shortGlyphs =>
    obtain ⟨l, hl⟩ := exists_glyphBytes_of_header h0 h1 h2 h3
    rw [hl] at hshort ⊢
    exact fontVerdict_shortGlyphs s.cfg hm (Nat.lt_of_add_lt_add_right (n := 4) hshort)

/-- Settles O15: the font is unsupported, and the free value picks one of the five font faults. -/
theorem fontloadFaultsOnRefusedMode : Obligations.FontloadFaultsOnRefusedMode := by
  intro s mode hs hf h0 h1 h2 h3 hm
  obtain ⟨l, hl⟩ := exists_glyphBytes_of_header h0 h1 h2 h3
  have hv : fontVerdict s.cfg s.fontOk s.stream = .unsupported := by
    rw [hf, hl]
    exact fontVerdict_unsupported s.cfg mode l hm
  exact ⟨unsupportedFontFault s.freeIndex, unsupportedFontFault_mem _,
    (exec_fontload hs).trans (loadFont_of_unsupported hv)⟩

/-- Settles O16: the verdict on the longer stream is the same. -/
theorem fontloadIgnoresTrailingBytes : Obligations.FontloadIgnoresTrailingBytes :=
  fun s _ extra hlen h => exec_fontload_setStream (fontVerdict_append s.cfg s.fontOk extra hlen) h

/-- Settles O17: with no MODE byte refused the verdict is the same for both. -/
theorem fontloadIgnoresModeByte : Obligations.FontloadIgnoresModeByte := by
  intro s a b mode mode' rest hm
  obtain ⟨t, ht⟩ := exec_fontload_completes { s with stream := a :: b :: mode :: rest }
  exact ⟨t, ht, exec_fontload_setStream (s := { s with stream := a :: b :: mode :: rest })
    (fontVerdict_mode hm s.fontOk a b mode' mode rest) ht⟩

/-- Settles O18: the cases of FONTLOAD on a quiescent and on an active block. -/
theorem fontloadIsAllOrNothing : Obligations.FontloadIsAllOrNothing := by
  intro s
  obtain ⟨t, ht⟩ := exec_fontload_completes s
  refine ⟨t, ht, ?_⟩
  rcases unlessQuiescent_cases ht with ⟨hs, rfl⟩ | ⟨hs, h⟩
  · exact .inl ⟨hs, rfl⟩
  · rcases loadFont_cases h with ⟨k, hk, rfl⟩ | ⟨hu, rfl⟩ | ⟨g, hf, _, rfl⟩
    · exact .inr (.inl ⟨hs, k, fontVerdict_raise_ne_none hk, rfl⟩)
    · obtain ⟨_, hm⟩ := modes_refused_of_unsupported hu
      exact .inr (.inr (.inl ⟨hs, hm, _, unsupportedFontFault_ne_none _, rfl⟩))
    · exact .inr (.inr (.inr ⟨hs, hf, g, rfl⟩))

end Sys2Proof.Machine
end

section
/-! SUPPORT. Proofs of the statements about TTYPUT (41_teletype.md): SCROLL as the two loops of the spec, the state
after a TTYPUT as one equation, what two character codes can differ in, and the frame that runs INT 0x10. -/

namespace Sys2Proof.Machine

/-! ## SCROLL as the spec's loops (41_teletype.md R127) -/

/-- Where an address can stand to the window: outside it, in the rows the scroll moves bytes to, or in row 24. -/
theorem scroll_address_cases (base a : Nat) :
    (a < base ∨ base + 4000 ≤ a) ∨ (∃ k, k < 3840 ∧ a = base + k) ∨
      ∃ j, j < 80 ∧ (a = base + 3840 + 2 * j ∨ a = base + 3840 + 2 * j + 1) := by
  by_cases hout : a < base ∨ base + 4000 ≤ a
  · exact .inl hout
  · by_cases hmoved : a < base + 3840
    · exact .inr (.inl ⟨a - base, by omega, by omega⟩)
    · exact .inr (.inr ⟨(a - base - 3840) / 2, by omega, by omega⟩)

theorem scrollLoopRows_succ (base : Nat) (m : Memory) (n : Nat) :
    scrollLoopRows base m (n + 1) =
      (scrollLoopRows base m n).write (base + n) ((scrollLoopRows base m n).read (base + n + 160)) := by
  simp [scrollLoopRows, List.range_succ, List.foldl_append]

/-- The ascending loop reads every byte before it overwrites it. -/
theorem read_scrollLoopRows (base : Nat) (m : Memory) (n a : Nat) :
    (scrollLoopRows base m n).read a = if base ≤ a ∧ a < base + n then m.read (a + 160) else m.read a := by
  induction n generalizing a with
  | zero => rw [if_neg (by omega)]; rfl
  | succ n ih =>
    rw [scrollLoopRows_succ, Memory.read_write]
    by_cases ha : base + n = a
    · subst ha
      rw [if_pos rfl, ih, if_neg (by omega), if_pos (by omega)]
    · rw [if_neg ha, ih]
      exact if_congr (by omega) rfl rfl

theorem scrollLoopRows_wf {base : Nat} {m : Memory} (h : m.wf) (n : Nat) (hn : base + n ≤ memSize) :
    (scrollLoopRows base m n).wf := by
  induction n with
  | zero => exact h
  | succ n ih =>
    rw [scrollLoopRows_succ]
    exact Memory.write_wf (ih (by omega)) (by omega) _

/-- The second loop of the spec is the model's fill. -/
theorem scrollLoop_eq_fillCells (cfg : Config) (m : Memory) :
    scrollLoop cfg m =
      fillCells cfg.scrollFill (cfg.videoBase.val + 3840) (scrollLoopRows cfg.videoBase.val m 3840) 80 := rfl

theorem scrollLoop_wf (cfg : Config) {m : Memory} (h : m.wf) : (scrollLoop cfg m).wf := by
  have hmem := window_in_memory cfg
  exact fillCells_wf _ (scrollLoopRows_wf h 3840 (by simp; omega)) 80 (by simp; omega)

/-- The model's SCROLL and the spec's read alike at every address, whatever the memory. -/
theorem read_scroll_eq_read_scrollLoop (cfg : Config) (m : Memory) (a : Nat) :
    (scroll cfg m).read a = (scrollLoop cfg m).read a := by
  rw [scrollLoop_eq_fillCells]
  rcases scroll_address_cases cfg.videoBase.val a with hout | ⟨k, hk, rfl⟩ | ⟨j, hj, rfl | rfl⟩
  · rw [read_scroll_outside cfg m a hout, read_fillCells_outside _ _ _ _ _ (by omega), read_scrollLoopRows,
      if_neg (by omega)]
  · rw [read_scroll_moved cfg m k hk, read_fillCells_outside _ _ _ _ _ (by omega), read_scrollLoopRows,
      if_pos (by omega)]
  · rw [(read_scroll_filled cfg m j hj).1, (read_fillCells_inside _ _ _ _ j hj).1]
  · rw [(read_scroll_filled cfg m j hj).2, (read_fillCells_inside _ _ _ _ j hj).2]

theorem scroll_eq_scrollLoop (cfg : Config) {m : Memory} (h : m.wf) : scroll cfg m = scrollLoop cfg m :=
  Memory.ext_of_read (scroll_wf cfg h) (scrollLoop_wf cfg h) (read_scroll_eq_read_scrollLoop cfg m)

/-! ## The state after a TTYPUT (41_teletype.md R123) -/

/-- The column after the advance (41_teletype.md R125). -/
def State.nextCol (s : State) : Nat := if s.curCol.toNat + 1 = 80 then 0 else s.curCol.toNat + 1

/-- The row after the advance, before the scroll (41_teletype.md R125). -/
def State.nextRow (s : State) : Nat := if s.curCol.toNat + 1 = 80 then s.curRow.toNat + 1 else s.curRow.toNat

theorem State.nextCol_along {s : State} (h : s.curCol.toNat < 79) : s.nextCol = s.curCol.toNat + 1 :=
  if_neg (by omega)

theorem State.nextRow_along {s : State} (h : s.curCol.toNat < 79) : s.nextRow = s.curRow.toNat :=
  if_neg (by omega)

theorem State.nextCol_wrap {s : State} (h : s.curCol.toNat = 79) : s.nextCol = 0 := if_pos (by omega)

theorem State.nextRow_wrap {s : State} (h : s.curCol.toNat = 79) : s.nextRow = s.curRow.toNat + 1 :=
  if_pos (by omega)

/-- Memory with the character c and 0x07 in the cell at the cursor (41_teletype.md R123, R124). -/
def State.typedMem (s : State) (c : Byte) : Memory := writeCell s.mem s.cursorAddress ⟨c, ttyAttr⟩

/-- The state TTYPUT c leaves where the cursor is on the grid. -/
def State.typed (s : State) (c : Byte) : State := advanceCursor (s.setMem (s.typedMem c))

theorem exec_ttyput_of_legal (c : Byte) {s : State} (hs : s.fault = .none) (hc : s.curCol.toNat < 80)
    (hr : s.curRow.toNat < 25) : exec (.ttyput c) s = .next (s.typed c) :=
  (exec_ttyput c hs).trans (teletype_of_legal c hc hr)

/-- TTYPUT on an active block answers a next state only on the grid. -/
theorem exec_ttyput_cases {c : Byte} {s t : State} (hs : s.fault = .none) (h : exec (.ttyput c) s = .next t) :
    s.curCol.toNat < 80 ∧ s.curRow.toNat < 25 ∧ t = s.typed c :=
  teletype_cases ((exec_ttyput c hs).symm.trans h)

/-- The state after a TTYPUT, field by field: memory and the cursor, and the rest as it was. -/
theorem State.typed_eq (s : State) (c : Byte) :
    s.typed c = { s with
      mem := if s.nextRow = 25 then scroll s.cfg (s.typedMem c) else s.typedMem c
      curCol := BitVec.ofNat 8 s.nextCol
      curRow := BitVec.ofNat 8 (if s.nextRow = 25 then 24 else s.nextRow) } := by
  by_cases h : s.nextRow = 25
  · rw [if_pos h, if_pos h]
    exact if_pos h
  · rw [if_neg h, if_neg h]
    exact if_neg h

/-- TTYPUT writes memory and the cursor and nothing else (41_teletype.md R129, R130). -/
theorem State.typed_frame (s : State) (c : Byte) :
    s.typed c = { s with mem := (s.typed c).mem, curCol := (s.typed c).curCol, curRow := (s.typed c).curRow } :=
  advanceCursor_frame _

@[simp] theorem State.typed_fault (s : State) (c : Byte) : (s.typed c).fault = s.fault := by rw [State.typed_frame]
@[simp] theorem State.typed_fontOk (s : State) (c : Byte) : (s.typed c).fontOk = s.fontOk := by rw [State.typed_frame]
@[simp] theorem State.typed_glyphs (s : State) (c : Byte) : (s.typed c).glyphs = s.glyphs := by rw [State.typed_frame]
@[simp] theorem State.typed_acc (s : State) (c : Byte) : (s.typed c).acc = s.acc := by rw [State.typed_frame]
@[simp] theorem State.typed_port (s : State) (c : Byte) : (s.typed c).port = s.port := by rw [State.typed_frame]

/-- TTYPUT does not look at FONT_OK or the glyph table (41_teletype.md R131). -/
theorem State.typed_withFont (s : State) (c : Byte) (b : Bool) (g : Option GlyphTable) :
    State.typed { s with fontOk := b, glyphs := g } c = { s.typed c with fontOk := b, glyphs := g } := by
  rw [State.typed_eq, State.typed_eq]
  rfl

/-- TTYPUT does not look at the sequencer's inputs or its place. -/
theorem State.typed_inFrame (s : State) (c : Byte) (polls : List Bool) (guest : List GuestAction) (p : Phase) :
    State.typed { s with polls := polls, guest := guest, phase := p } c =
      { s.typed c with polls := polls, guest := guest, phase := p } := by
  rw [State.typed_eq, State.typed_eq]
  rfl

theorem read_typedMem (s : State) (c : Byte) (a : Nat) :
    (s.typedMem c).read a =
      if a = s.cursorAddress then c else if a = s.cursorAddress + 1 then 0x07 else s.mem.read a :=
  read_writeCell _ _ _ _

/-- Both bytes of the cursor's cell are bytes of the window (20_memory.md R63). -/
theorem cursorAddress_in_window {s : State} (hc : s.curCol.toNat < 80) (hr : s.curRow.toNat < 25) :
    s.cfg.videoBase.val ≤ s.cursorAddress ∧ s.cursorAddress + 1 < s.cfg.videoBase.val + 4000 :=
  cellAddress_in_window s.cfg hc hr

theorem typedMem_wf {s : State} (h : s.mem.wf) (hc : s.curCol.toNat < 80) (hr : s.curRow.toNat < 25) (c : Byte) :
    (s.typedMem c).wf :=
  writeCell_wf h ((cursorAddress_in_window hc hr).2.trans_le (window_in_memory s.cfg)) _

theorem read_typed_outside {s : State} (hc : s.curCol.toNat < 80) (hr : s.curRow.toNat < 25) (c : Byte) {a : Nat}
    (ha : ¬InWindow s.cfg a) : (s.typed c).readByte a = s.readByte a := by
  obtain ⟨hlow, hhigh⟩ := cursorAddress_in_window hc hr
  have hout : a < s.cfg.videoBase.val ∨ s.cfg.videoBase.val + 4000 ≤ a := by
    simp only [InWindow, windowBytes] at ha; omega
  calc (s.typed c).mem.read a
    _ = (s.typedMem c).read a := read_advanceCursor_outside _ a hout
    _ = s.mem.read a := by rw [read_typedMem, if_neg (by omega), if_neg (by omega)]

/-! ## What the character code can reach (41_teletype.md R128) -/

/-- Where the two memories differ, the one holds c and the other d. -/
def DifferOnlyAs (c d : Byte) (m n : Memory) : Prop := ∀ a, m.read a ≠ n.read a → m.read a = c ∧ n.read a = d

theorem differOnlyAs_typedMem (s : State) (c d : Byte) : DifferOnlyAs c d (s.typedMem c) (s.typedMem d) := by
  intro a hne
  rw [read_typedMem, read_typedMem] at hne ⊢
  by_cases ha : a = s.cursorAddress
  · rw [if_pos ha, if_pos ha]; exact ⟨rfl, rfl⟩
  · rw [if_neg ha, if_neg ha] at hne; exact absurd rfl hne

/-- A scroll moves a difference along with its cell and makes none. -/
theorem DifferOnlyAs.scroll {c d : Byte} {m n : Memory} (h : DifferOnlyAs c d m n) (cfg : Config) :
    DifferOnlyAs c d (scroll cfg m) (scroll cfg n) := by
  intro a
  rcases scroll_address_cases cfg.videoBase.val a with hout | ⟨k, hk, rfl⟩ | ⟨j, hj, rfl | rfl⟩
  · rw [read_scroll_outside cfg m a hout, read_scroll_outside cfg n a hout]
    exact h a
  · rw [read_scroll_moved cfg m k hk, read_scroll_moved cfg n k hk]
    exact h _
  · rw [(read_scroll_filled cfg m j hj).1, (read_scroll_filled cfg n j hj).1]
    exact fun hne => absurd rfl hne
  · rw [(read_scroll_filled cfg m j hj).2, (read_scroll_filled cfg n j hj).2]
    exact fun hne => absurd rfl hne

theorem differOnlyAs_typed (s : State) (c d : Byte) : DifferOnlyAs c d (s.typed c).mem (s.typed d).mem := by
  rw [State.typed_eq, State.typed_eq]
  by_cases h : s.nextRow = 25
  · simp only [if_pos h]
    exact (differOnlyAs_typedMem s c d).scroll s.cfg
  · simp only [if_neg h]
    exact differOnlyAs_typedMem s c d

/-! ## The software interrupt and the steps of a frame (41_teletype.md R120, 42_compose.md R154) -/

theorem al_eq_setWidth (s : State) : s.al = s.acc.setWidth 8 :=
  (BitVec.setWidth_eq_extractLsb' (by decide)).symm

/-- The interrupt issues the word of TTYPUT AL, which decodes to it. -/
theorem softwareInterrupt_eq (v : Byte) (s : State) :
    softwareInterrupt v s = if v = videoVector ∧ s.ah = teletypeService then exec (.ttyput s.al) s else .next s := by
  rw [softwareInterrupt, runCommand_of_decode (decode_encode _)]

/-- Step 1 of a frame that goes on to an instruction. -/
theorem step_of_poll_running {s : State} (hp : s.port = []) (hq : s.phase = .poll) (hh : s.halted = false)
    (hpoll : s.polls.head? ≠ some true) :
    step s = .next ({ s with polls := s.polls.tail }.setPhase .execute) := by
  simp [step, sequencerStep, pollStep, hp, hq, hh, hpoll]

/-- Step 2 of a frame whose instruction is INT 0x10 with AH = 0x0E: TTYPUT AL. -/
theorem step_of_execute_teletype {s : State} {rest : List GuestAction} (hp : s.port = []) (hq : s.phase = .execute)
    (hg : s.guest = .softInt videoVector :: rest) (hah : s.ah = teletypeService) (hs : s.fault = .none)
    (hc : s.curCol.toNat < 80) (hr : s.curRow.toNat < 25) :
    step s = .next (({ s with guest := rest }.setPhase .compose).typed s.al) := by
  have hint : step s = softwareInterrupt videoVector ({ s with guest := rest }.setPhase .compose) := by
    rw [step_of_execute hp hq, executeStep, hg]
  rw [hint, softwareInterrupt_eq, if_pos ⟨rfl, hah⟩]
  exact exec_ttyput_of_legal s.al hs hc hr

/-- Step 3 of a frame, where COMPOSE has what it needs. -/
theorem step_of_compose_font {s : State} {g : GlyphTable} (hp : s.port = []) (hq : s.phase = .compose)
    (hs : s.fault = .none) (hf : s.fontOk = true) (hg : s.glyphs = some g) :
    step s = .next ((s.setPhase .present).setFrame (rasterize s.cfg s.windowCells g)) := by
  calc step s
    _ = composeStep s := by simp [step, sequencerStep, hp, hq]
    _ = exec .compose (s.setPhase .present) := runCommand_of_decode (decode_encode .compose) _
    _ = composeFrame (s.setPhase .present) := exec_compose hs
    _ = _ := composeFrame_of_font hf hg

/-- Step 4 of a frame. -/
theorem step_of_present {s : State} (hp : s.port = []) (hq : s.phase = .present) :
    step s = .next ({ s with presented := some s.fb }.setPhase .poll) := by
  simp [step, sequencerStep, presentStep, hp, hq]

theorem run_two_of_next {s t u : State} (hst : step s = .next t) (htu : step t = .next u) :
    Host.Core.run core 2 s = .next u :=
  (run_succ_of_next 1 hst).trans ((run_succ_of_next 0 htu).trans (run_zero u))

/-- Steps 1 and 2 of a frame whose instruction is INT 0x10 with AH = 0x0E. -/
theorem run_poll_teletype {s : State} {rest : List GuestAction} (hp : s.port = []) (hq : s.phase = .poll)
    (hh : s.halted = false) (hpoll : s.polls.head? ≠ some true) (hg : s.guest = .softInt videoVector :: rest)
    (hah : s.ah = teletypeService) (hs : s.fault = .none) (hc : s.curCol.toNat < 80) (hr : s.curRow.toNat < 25) :
    Host.Core.run core 2 s =
      .next { s.typed s.al with polls := s.polls.tail, guest := rest, phase := .compose } := by
  rw [← State.typed_inFrame]
  exact run_two_of_next (step_of_poll_running hp hq hh hpoll) (step_of_execute_teletype hp rfl hg hah hs hc hr)

/-- Steps 3 and 4 of a frame: the window is painted and the frame presented (42_compose.md R153). -/
theorem run_compose_present {s : State} {g : GlyphTable} (hp : s.port = []) (hq : s.phase = .compose)
    (hs : s.fault = .none) (hf : s.fontOk = true) (hg : s.glyphs = some g) :
    Host.Core.run core 2 s = .next { s with
      fb := rasterize s.cfg s.windowCells g
      fbValid := true
      presented := some (rasterize s.cfg s.windowCells g)
      phase := .poll } :=
  run_two_of_next (step_of_compose_font hp hq hs hf hg) (step_of_present hp rfl)

/-! ## The statements of 41_teletype.md -/

/-- Settles O23: both scrolls keep the canonical form and read alike, and the form is canonical. -/
theorem scrollEqualsTheSpecLoops : Obligations.ScrollEqualsTheSpecLoops :=
  ⟨fun cfg _ h => scroll_eq_scrollLoop cfg h, rfl⟩

/-- Settles O20: the equation of the state after a TTYPUT, with the spec's loops for the model's scroll. -/
theorem ttyputFollowsPseudocode : Obligations.TtyputFollowsPseudocode := by
  intro s c hs hm hc hr
  rw [exec_ttyput_of_legal c hs hc hr, State.typed_eq, scroll_eq_scrollLoop s.cfg (typedMem_wf hm hc hr c)]
  rfl

/-- Settles O21: away from the last cell the next row is on the grid, so the two stores are all of memory's change. -/
theorem ttyputWritesOneCellAndAdvances : Obligations.TtyputWritesOneCellAndAdvances := by
  intro s c hs hc hr hlast
  have hrow : s.nextRow ≠ 25 := by unfold State.nextRow; split <;> omega
  have ht : s.typed c = { s with
      mem := s.typedMem c, curCol := BitVec.ofNat 8 s.nextCol, curRow := BitVec.ofNat 8 s.nextRow } := by
    rw [State.typed_eq, if_neg hrow, if_neg hrow]
  refine ⟨s.typed c, exec_ttyput_of_legal c hs hc hr, ?_, ?_, ?_, ?_, ?_, s.typed_frame c⟩ <;> rw [ht]
  · exact (read_typedMem s c _).trans (if_pos rfl)
  · exact (read_typedMem s c _).trans ((if_neg (Nat.succ_ne_self _)).trans (if_pos rfl))
  · intro a hchar hattr
    exact (read_typedMem s c a).trans ((if_neg hchar).trans (if_neg hattr))
  · intro h79
    rw [State.nextCol_along h79, State.nextRow_along h79, BitVec.ofNat_toNat, BitVec.setWidth_eq]
    exact ⟨Nat.mod_eq_of_lt (by omega), rfl⟩
  · intro h79
    rw [State.nextCol_wrap h79, State.nextRow_wrap h79]
    exact ⟨rfl, Nat.mod_eq_of_lt (by omega)⟩

/-- Settles O22: the next row is 25, so the scroll runs, and the cell just written is at offset 3998 before it. -/
theorem ttyputAtLastCellScrolls : Obligations.TtyputAtLastCellScrolls := by
  intro s c hs hc hr
  have hc80 : s.curCol.toNat < 80 := by omega
  have hr25 : s.curRow.toNat < 25 := by omega
  have hrow : s.nextRow = 25 := by rw [State.nextRow_wrap hc, hr]
  have haddr : s.cursorAddress = s.cfg.videoBase.val + 3998 := by
    rw [State.cursorAddress, State.cursorIndex, hc, hr]; rfl
  have ht : s.typed c = { s with mem := scroll s.cfg (s.typedMem c), curCol := 0, curRow := 24 } := by
    rw [State.typed_eq, if_pos hrow, if_pos hrow, State.nextCol_wrap hc]; rfl
  have hmoved : ∀ k, k < 3840 → (s.typed c).readByte (s.cfg.videoBase.val + k) =
      if k = 3838 then c else if k = 3839 then 0x07 else s.readByte (s.cfg.videoBase.val + k + 160) := by
    intro k hk
    rw [ht, State.readByte, read_scroll_moved _ _ k hk, read_typedMem, haddr]
    exact if_congr (by omega) rfl (if_congr (by omega) rfl rfl)
  refine ⟨s.typed c, exec_ttyput_of_legal c hs hc80 hr25, by rw [ht]; rfl, by rw [ht]; rfl, fun k hk => ?_,
    hmoved 3838 (by decide), hmoved 3839 (by decide), fun j hj => ?_,
    fun a ha => read_typed_outside hc80 hr25 c ha, s.typed_frame c⟩
  · rw [hmoved k (by omega), if_neg (by omega), if_neg (by omega)]
  · rw [ht]
    exact read_scroll_filled s.cfg _ j hj

/-- Settles O24: a quiescent block stays as it is, and an active one takes the frame of the state after a TTYPUT. -/
theorem ttyputTouchesOnlyWindowAndCursor : Obligations.TtyputTouchesOnlyWindowAndCursor := by
  intro s t c h
  rcases unlessQuiescent_cases h with ⟨_, rfl⟩ | ⟨hs, _⟩
  · exact ⟨rfl, fun _ _ => rfl, rfl⟩
  · obtain ⟨hc, hr, rfl⟩ := exec_ttyput_cases hs h
    exact ⟨s.typed_acc c, fun a ha => read_typed_outside hc hr c ha, s.typed_frame c⟩

/-- Settles O25: the code reaches memory only by its own cell, and the cursor not at all. -/
theorem noCharacterCodeIsSpecial : Obligations.NoCharacterCodeIsSpecial := by
  intro s t c d hs h
  obtain ⟨hc, hr, rfl⟩ := exec_ttyput_cases hs h
  refine ⟨s.typed d, exec_ttyput_of_legal d hs hc hr, ?_, ?_, differOnlyAs_typed s c d⟩ <;>
    rw [State.typed_eq, State.typed_eq]

/-- Settles O26: the state after a TTYPUT carries another font along. -/
theorem ttyputNeedsNoFont : Obligations.TtyputNeedsNoFont := by
  intro s c hs hc hr
  refine ⟨s.typed c, exec_ttyput_of_legal c hs hc hr, fun b g => ?_⟩
  rw [exec_ttyput_of_legal c (s := { s with fontOk := b, glyphs := g }) hs hc hr, State.typed_withFont]

/-- Settles O43: the routing condition reads AL and AH as bits of the accumulator. -/
theorem videoInterruptIsTtyput : Obligations.VideoInterruptIsTtyput := by
  intro s v
  rw [softwareInterrupt_eq, al_eq_setWidth]
  rfl

/-- Settles O48: the first half of the frame leaves the state after the TTYPUT, and the second half paints and presents
its window. -/
theorem frameShowsItsOwnTtyput : Obligations.FrameShowsItsOwnTtyput := by
  intro s g rest hp hq hh hpoll hguest hah hs hf hg hc hr
  have htyped := run_poll_teletype hp hq hh hpoll hguest hah hs hc hr
  have hshown := run_compose_present
    (s := { s.typed s.al with polls := s.polls.tail, guest := rest, phase := .compose }) (g := g)
    ((s.typed_port _).trans hp) rfl ((s.typed_fault _).trans hs) ((s.typed_fontOk _).trans hf)
    ((s.typed_glyphs _).trans hg)
  exact ⟨s.typed s.al, _, exec_ttyput_of_legal s.al hs hc hr, (run_add 2 2 htyped).trans hshown, rfl, rfl, rfl, rfl,
    s.typed_acc _, rfl, rfl, rfl⟩

end Sys2Proof.Machine
end

section
/-! SUPPORT. Proofs of the statements about COMPOSE and the frames around it (42_compose.md): what a frame depends on,
down to the one cell a pixel depends on, then the steps that end a run and the frames of a halted executor. -/

namespace Sys2Proof.Machine

/-! ## COMPOSE on an active block (42_compose.md R141, R148) -/

theorem exec_compose_of_font {s : State} {g : GlyphTable} (hs : s.fault = .none) (hf : s.fontOk = true)
    (hg : s.glyphs = some g) : exec .compose s = .next (s.setFrame (rasterize s.cfg s.windowCells g)) :=
  (exec_compose hs).trans (composeFrame_of_font hf hg)

/-- With FONT_OK = 1, COMPOSE answers a next state only by painting the window. -/
theorem exec_compose_cases {s t : State} (hs : s.fault = .none) (hf : s.fontOk = true)
    (h : exec .compose s = .next t) :
    ∃ g, s.glyphs = some g ∧ t = s.setFrame (rasterize s.cfg s.windowCells g) := by
  rw [exec_compose hs] at h
  rcases composeFrame_cases h with ⟨hno, _⟩ | ⟨g, _, hg, rfl⟩
  · exact absurd (hf.symm.trans hno) nofun
  · exact ⟨g, hg, rfl⟩

/-! ## What a frame depends on (42_compose.md R149, R152) -/

theorem laneBit_eq_getLsbD (msbLeft : Bool) (b : Byte) (gx : Nat) :
    laneBit msbLeft b gx = b.getLsbD (if msbLeft then 7 - gx else gx) := by
  cases msbLeft <;> rfl

/-- Of the parameters, the compositor reads the palette, the pixel layout and the order of a glyph row's bits. -/
theorem rasterize_congr {cfg cfg' : Config} (hpal : cfg.palette = cfg'.palette)
    (hlay : cfg.pixelLayout = cfg'.pixelLayout) (hmsb : cfg.glyphMsbLeft = cfg'.glyphMsbLeft)
    (w : Vector Cell 2000) (g : GlyphTable) : rasterize cfg w g = rasterize cfg' w g := by
  have hentry : paletteEntry cfg = paletteEntry cfg' := by
    funext i
    simp only [paletteEntry, hpal, hlay]
  simp only [rasterize, pixelOf, hentry, hmsb]

/-- Equal window bytes are equal cells, wherever the window stands. -/
theorem windowCells_congr {s s' : State} (h : ∀ k, k < 4000 →
    s.readByte (s.cfg.videoBase.val + k) = s'.readByte (s'.cfg.videoBase.val + k)) :
    s.windowCells = s'.windowCells := by
  refine Vector.ext fun i hi => ?_
  rw [getElem_windowCells s i hi, getElem_windowCells s' i hi]
  exact congrArg₂ Cell.mk (h (2 * i) (by omega)) (h (2 * i + 1) (by omega))

/-- A cell of the grid is at one place of it. -/
theorem cellIndex_inj {col row col' row' : Nat} (hc : col < 80) (hc' : col' < 80)
    (h : cellIndex col row = cellIndex col' row') : col = col' ∧ row = row' := by
  unfold cellIndex at h; omega

/-- A memory that differs in the two bytes of cell j only leaves every other cell. -/
theorem fetchCell_withMem {s : State} {m : Memory} {i j : Nat}
    (hm : ∀ a, a ≠ cellAddress s.cfg j → a ≠ cellAddress s.cfg j + 1 → m.read a = s.mem.read a) (hij : i ≠ j) :
    State.fetchCell { s with mem := m } i = s.fetchCell i := by
  have haddr : ∀ k, k < 2 → m.read (cellAddress s.cfg i + k) = s.mem.read (cellAddress s.cfg i + k) := by
    intro k hk
    unfold cellAddress at hm ⊢
    exact hm _ (by omega) (by omega)
  exact congrArg₂ Cell.mk (haddr 0 (by decide)) (haddr 1 (by decide))

/-- A pixel depends on its own cell and on no other of the window (42_compose.md R152). -/
theorem pixelOf_windowCells_congr {s s' : State} (g : GlyphTable) (x : Fin 640) (y : Fin 400) (hcfg : s.cfg = s'.cfg)
    (hcell : s.fetchCell (cellIndex (x / 8) (y / 16)) = s'.fetchCell (cellIndex (x / 8) (y / 16))) :
    pixelOf s.cfg s.windowCells g x y = pixelOf s'.cfg s'.windowCells g x y := by
  rw [pixelOf_windowCells, pixelOf_windowCells, hcell, hcfg]

/-! ## The steps of the sequencer that end a run (42_compose.md R156, R157) -/

/-- Step 1 of a frame with a shutdown event. -/
theorem step_of_poll_shutdown {s : State} {rest : List Bool} (hp : s.port = []) (hq : s.phase = .poll)
    (hpoll : s.polls = true :: rest) : step s = .next { s with polls := rest, phase := .ended .shutdown } := by
  simp [step, sequencerStep, pollStep, hp, hq, hpoll, State.setPhase]

theorem step_of_execute_decodeError {s : State} {rest : List GuestAction} (hp : s.port = [])
    (hq : s.phase = .execute) (hg : s.guest = .decodeError :: rest) :
    step s = .next { s with guest := rest, phase := .ended .decodeError } := by
  rw [step_of_execute hp hq, executeStep, hg]
  rfl

theorem step_of_ended {s : State} {why : EndReason} (hp : s.port = []) (hq : s.phase = .ended why) :
    step s = .fault .runEnded := by
  simp [step, sequencerStep, hp, hq]

theorem CommandEffect.phase_eq {w : Word} {s t : State} (h : CommandEffect w s t) : t.phase = s.phase := by
  obtain ⟨_, _, _, _, _, hphase, _⟩ := h.outside
  exact hphase

/-- Startup ends a run by a fault or for want of a boot device, never by shutdown. -/
theorem startupStep_shutdown {s t : State} (h : startupStep s = .next t) (ht : t.phase = .ended .shutdown) :
    s.phase = .ended .shutdown := by
  rcases startupStep_cases h with
    ⟨_, rfl⟩ | ⟨_, _, _, rfl⟩ | ⟨_, _, rfl⟩ | ⟨l, rest, _, _, hc⟩ | ⟨ds, l, rest, _, _, hb⟩
  · cases ht
  · cases ht
  · exact ht
  · exact hc.phase_eq.symm.trans ht
  · rcases bootSelection_cases hb with rfl | ⟨d, _, _, _, rfl⟩
    · cases ht
    · exact ht

/-- Step 2 of a frame ends a run by a DecodeError, never by shutdown. -/
theorem GuestEffect.shutdown {a : GuestAction} {s t : State} (h : GuestEffect a s t)
    (ht : t.phase = .ended .shutdown) : s.phase = .ended .shutdown := by
  cases h with
  | failed => cases ht
  | typed _ _ _ hc => exact hc.phase_eq.symm.trans ht
  | _ => exact ht

/-! ## Frames of a halted executor (42_compose.md R155) -/

/-- Step 1 of a frame that goes on without an instruction. -/
theorem step_of_poll_halted {s : State} (hp : s.port = []) (hq : s.phase = .poll) (hh : s.halted = true)
    (hpoll : s.polls.head? ≠ some true) :
    step s = .next ({ s with polls := s.polls.tail }.setPhase .compose) := by
  simp [step, sequencerStep, pollStep, hp, hq, hh, hpoll]

/-- The state after k polls with the frame f painted and presented, at the poll of the next frame. -/
def State.afterFrames (s : State) (f : FrameBuffer) (k : Nat) : State :=
  { s with polls := s.polls.drop k, fb := f, fbValid := true, presented := some f, phase := .poll }

@[simp] theorem State.afterFrames_cfg (s : State) (f : FrameBuffer) (k : Nat) : (s.afterFrames f k).cfg = s.cfg := rfl

@[simp] theorem State.afterFrames_windowCells (s : State) (f : FrameBuffer) (k : Nat) :
    (s.afterFrames f k).windowCells = s.windowCells := rfl

theorem State.afterFrames_afterFrames (s : State) (f : FrameBuffer) (j k : Nat) :
    (s.afterFrames f j).afterFrames f k = s.afterFrames f (j + k) := by
  simp only [State.afterFrames, List.drop_drop]

/-- A list of polls without an event shows none at any of them. -/
theorem head?_drop_ne_some_true {polls : List Bool} (h : ∀ b ∈ polls, b = false) (k : Nat) :
    (polls.drop k).head? ≠ some true := fun hk =>
  absurd (h true (List.mem_of_mem_drop (List.mem_of_mem_head? hk))) nofun

/-- One frame of a halted executor: poll, COMPOSE, present. -/
theorem run_halted_frame {s : State} {g : GlyphTable} (hp : s.port = []) (hq : s.phase = .poll)
    (hh : s.halted = true) (hpoll : s.polls.head? ≠ some true) (hs : s.fault = .none) (hf : s.fontOk = true)
    (hg : s.glyphs = some g) :
    Host.Core.run core 3 s = .next (s.afterFrames (rasterize s.cfg s.windowCells g) 1) := by
  rw [run_succ_of_next 2 (step_of_poll_halted hp hq hh hpoll), State.afterFrames, List.drop_one]
  exact run_compose_present hp rfl hs hf hg

/-- Every frame of a halted executor leaves the state the first one leaves, but for the polls used up. -/
theorem run_halted_frames {s : State} {g : GlyphTable} (hp : s.port = []) (hq : s.phase = .poll)
    (hh : s.halted = true) (hpolls : ∀ b ∈ s.polls, b = false) (hs : s.fault = .none) (hf : s.fontOk = true)
    (hg : s.glyphs = some g) (n : Nat) :
    Host.Core.run core (3 * (n + 1)) s = .next (s.afterFrames (rasterize s.cfg s.windowCells g) (n + 1)) := by
  induction n with
  | zero => exact run_halted_frame hp hq hh (head?_drop_ne_some_true hpolls 0) hs hf hg
  | succ n ih =>
    have hnext := run_halted_frame (s := s.afterFrames (rasterize s.cfg s.windowCells g) (n + 1)) (g := g) hp rfl hh
      (head?_drop_ne_some_true hpolls (n + 1)) hs hf hg
    rw [Nat.mul_succ, run_add _ _ ih, hnext, State.afterFrames_windowCells, State.afterFrames_cfg,
      State.afterFrames_afterFrames]

/-! ## The statements of 42_compose.md -/

/-- Settles O28: the frame is the rasterized window, and its pixel equation is the spec's. -/
theorem composePaintsEveryPixel : Obligations.ComposePaintsEveryPixel := by
  intro s g hs hf hg
  refine ⟨rasterize s.cfg s.windowCells g, exec_compose_of_font hs hf hg, fun x y => ?_⟩
  rw [getElem_rasterize _ _ _ _ _ x.isLt y.isLt, pixelOf_windowCells, laneBit_eq_getLsbD]
  rfl

/-- Settles O31: equal window bytes are equal cells, and the compositor is a function of them, the table and three
parameters. -/
theorem composeIsPure : Obligations.ComposeIsPure := by
  intro s s' t t' hs hs' hf hf' hglyphs hpal hlay hmsb hwin h h'
  obtain ⟨g, hg, rfl⟩ := exec_compose_cases hs hf h
  obtain ⟨g', hg', rfl⟩ := exec_compose_cases hs' hf' h'
  obtain rfl : g = g' := Option.some.inj (hg.symm.trans (hglyphs.trans hg'))
  rw [State.setFrame_fb, State.setFrame_fb, windowCells_congr hwin, rasterize_congr hpal hlay hmsb]

/-- Settles O32: a pixel depends on its own cell, and the two bytes that differ are another's. -/
theorem composeHasNoCrossCellAliasing : Obligations.ComposeHasNoCrossCellAliasing := by
  intro s t t' m col row hs hf hcol _ hm h h' x y hout
  obtain ⟨g, hg, rfl⟩ := exec_compose_cases hs hf h
  obtain ⟨g', hg', rfl⟩ := exec_compose_cases (s := { s with mem := m }) hs hf h'
  obtain rfl : g = g' := Option.some.inj (hg.symm.trans hg')
  have hother : cellIndex (x / 8) (y / 16) ≠ cellIndex col row := fun he =>
    hout (cellIndex_inj (by omega) hcol he)
  rw [State.setFrame_fb, State.setFrame_fb, getElem_rasterize _ _ _ _ _ x.isLt y.isLt,
    getElem_rasterize _ _ _ _ _ x.isLt y.isLt]
  exact pixelOf_windowCells_congr g x y rfl (fetchCell_withMem hm hother).symm

/-- Settles O33: the glyph bit picks between two equal palette entries. -/
theorem equalColoursGiveSolidCell : Obligations.EqualColoursGiveSolidCell := by
  intro s t x y hs hf h heq
  obtain ⟨g, _, rfl⟩ := exec_compose_cases hs hf h
  rw [State.setFrame_fb, getElem_rasterize _ _ _ _ _ x.isLt y.isLt, pixelOf_windowCells, ← heq, ite_self]

/-- Settles O45: of everything a step can do only the poll moves the sequencer to the end by shutdown. -/
theorem shutdownOnlyAtPoll : Obligations.ShutdownOnlyAtPoll := by
  refine ⟨fun s rest hp hq hpoll => step_of_poll_shutdown hp hq hpoll, fun s t h ht hne => ?_⟩
  cases step_cases h with
  | shutdown hp hq hpoll => exact ⟨hp, hq, hpoll⟩
  | command _ _ _ _ hc => exact absurd (hc.phase_eq.symm.trans ht) hne
  | startup _ _ _ hs => exact absurd (startupStep_shutdown hs ht) hne
  | polled p _ _ _ hnext =>
    obtain rfl : p = .ended .shutdown := ht
    split at hnext <;> cases hnext
  | executed _ _ _ _ _ _ hg => cases hg.shutdown ht
  | composed _ _ _ hc => cases hc.phase_eq.symm.trans ht
  | presented => cases ht

/-- Settles O46: n + 1 frames leave the starting state with its window painted and presented. -/
theorem haltedFramesAreIdentical : Obligations.HaltedFramesAreIdentical := by
  intro s g hp hq hh hs hf hg hpolls n
  exact ⟨_, run_halted_frames hp hq hh hpolls hs hf hg n, rfl, rfl, rfl, rfl, rfl, rfl, rfl, hh, rfl⟩

/-- Settles O29: COMPOSE fails its FONT_OK check. -/
theorem composeNeedsTheFont : Obligations.ComposeNeedsTheFont := by
  intro s hs hf
  have hno : ¬s.fontOk = true := by rw [hf]; nofun
  rw [exec_compose hs, composeFrame, if_neg hno]
  rfl

/-- Settles O47: the DecodeError's step goes to the end of the run, where the next one faults. -/
theorem decodeErrorEndsTheRun : Obligations.DecodeErrorEndsTheRun := by
  intro s rest hp hq hg
  have herror := step_of_execute_decodeError hp hq hg
  exact ⟨herror, (run_succ_of_next 1 herror).trans (run_succ_of_fault 0 (step_of_ended hp rfl))⟩

/-- Settles O52: step 4 of a frame is the latch of the frame buffer. -/
theorem presentHandsOverTheFrame : Obligations.PresentHandsOverTheFrame :=
  fun _ hp hq => step_of_present hp hq

end Sys2Proof.Machine
end

section
/-! SUPPORT. Proofs of the statements about faults (60_exceptions.md): the fault codes by number, which updates a
command makes when it raises a fault, and what stays as it is once one is recorded. -/

namespace Sys2Proof.Machine

/-! ## The fault codes by number (60_exceptions.md R172) -/

/-- The fault codes in the order of the table of 60_exceptions.md R172. -/
def faultCodeTable : List FaultCode :=
  [.none, .fontMissing, .fontShortHeader, .fontBadMagic, .fontBadHeight, .fontShortGlyphs, .cmdBadOp,
    .cmdReservedBits, .cmdFontReload, .cmdNotReady]

/-- A fault's number is its place in the table, so the number gives the fault back. -/
theorem faultCodeTable_code (k : FaultCode) : faultCodeTable[k.code.toNat]? = some k := by
  cases k <;> rfl

theorem FaultCode.code_injective : Function.Injective FaultCode.code := by
  intro k l h
  have hplace : some k = some l := by rw [← faultCodeTable_code k, h, faultCodeTable_code l]
  exact Option.some.inj hplace

theorem FaultCode.code_le_nine (k : FaultCode) : k.code.toNat ≤ 9 := by
  obtain ⟨hlt, _⟩ := List.getElem?_eq_some_iff.1 (faultCodeTable_code k)
  exact Nat.le_of_lt_succ hlt

/-! ## The command that raises the fault (60_exceptions.md R171) -/

/-- A command that leaves an active block with a fault has only raised it. -/
theorem CommandEffect.raises {w : Word} {s t : State} (h : CommandEffect w s t) (hs : s.fault = .none)
    (ht : t.fault ≠ .none) :
    (∃ k, t = s.raiseFault k) ∨ (s.cfg.fontModesRefused ≠ [] ∧ t = s.raiseUnsupportedFont) := by
  cases h with
  | ignored hf => exact absurd hs hf
  | raised k => exact .inl ⟨k, rfl⟩
  | unsupported _ _ _ hm => exact .inr ⟨hm, rfl⟩
  | loaded g => exact absurd hs ht
  | typed c => rw [advanceCursor_frame] at ht; exact absurd hs ht
  | composed g => exact absurd hs ht

/-! ## After the fault (60_exceptions.md R173) -/

theorem exec_of_fault (i : Instr) {s : State} (h : s.fault ≠ .none) : exec i s = .next s := by
  cases i with
  | fontload => exact unlessQuiescent_of_fault loadFont h
  | ttyput c => exact unlessQuiescent_of_fault (teletype c) h
  | compose => exact unlessQuiescent_of_fault composeFrame h

/-- Of everything a command can do only being ignored is open to a faulted block. -/
theorem CommandEffect.eq_of_fault {w : Word} {s t : State} (h : CommandEffect w s t) (hs : s.fault ≠ .none) :
    t = s := by
  cases h with
  | ignored => rfl
  | raised _ hn | unsupported hn | loaded _ hn | typed _ hn | composed _ hn => exact absurd hn hs

theorem CommandEffect.sameBlock {w : Word} {s t : State} (h : CommandEffect w s t) (hs : s.fault ≠ .none) :
    SameBlock s t := by
  rw [h.eq_of_fault hs]
  exact ⟨rfl, rfl, rfl, rfl, rfl, rfl, rfl, rfl⟩

/-- A fault ends startup at its next step (70_reset_and_hazards.md R205). -/
theorem startupStep_of_fault {s : State} (hs : s.fault ≠ .none) :
    startupStep s = .next (s.setPhase (.ended .startupFault)) := by
  rw [startupStep, if_pos ((faulted_eq_true_iff s).2 hs)]

theorem startupStep_sameBlock {s t : State} (h : startupStep s = .next t) (hs : s.fault ≠ .none) :
    SameBlock s t := by
  rw [startupStep_of_fault hs] at h
  cases h
  exact ⟨rfl, rfl, rfl, rfl, rfl, rfl, rfl, rfl⟩

/-- The executor's instructions go on, but a TTYPUT among them is ignored. -/
theorem GuestEffect.sameBlock {a : GuestAction} {s t : State} (h : GuestEffect a s t) (hs : s.fault ≠ .none) :
    SameBlock s t := by
  cases h with
  | typed _ _ _ hc => exact hc.sameBlock hs
  | nothing | moved | halted | failed => exact ⟨rfl, rfl, rfl, rfl, rfl, rfl, rfl, rfl⟩

/-- A step of a faulted machine runs its commands to no effect, and what else it does is outside the block. -/
theorem StepEffect.sameBlock {s t : State} (h : StepEffect s t) (hs : s.fault ≠ .none) : SameBlock s t := by
  cases h with
  | command _ _ _ _ hc => exact hc.sameBlock hs
  | startup _ _ _ hstep => exact startupStep_sameBlock hstep hs
  | executed _ _ _ _ _ _ hg => exact hg.sameBlock hs
  | composed _ _ _ hc => exact hc.sameBlock hs
  | shutdown | polled | presented => exact ⟨rfl, rfl, rfl, rfl, rfl, rfl, rfl, rfl⟩

/-! ## The statements of 60_exceptions.md -/

/-- Settles O9: a faulted block ignores every word, and all else a step does is outside the block. -/
theorem faultedBlockIsQuiescent : Obligations.FaultedBlockIsQuiescent :=
  ⟨fun w _ hs => runCommand_of_fault w hs, fun _ _ hs h => (step_cases h).sameBlock hs⟩

/-- Settles O8: both ways to raise a fault write FAULT, and only that of an unsupported font moves the free index. -/
theorem raisedFaultHasNoOtherEffect : Obligations.RaisedFaultHasNoOtherEffect := by
  intro w s t hs h ht
  have hfaulted : t.faulted = true := (faulted_eq_true_iff t).2 ht
  rcases (runCommand_cases h).raises hs ht with ⟨k, rfl⟩ | ⟨hm, rfl⟩
  · exact ⟨rfl, hfaulted, fun _ => rfl⟩
  · exact ⟨rfl, hfaulted, fun hnone => absurd hnone hm⟩

/-- Settles O10: each command stands below the quiescent check. -/
theorem faultedBlockIgnoresExec : Obligations.FaultedBlockIgnoresExec :=
  fun i _ hs => exec_of_fault i hs

/-- Settles O11: the numbers by evaluation, the rest because a fault's number is its place among ten. -/
theorem faultCodeNumbers : Obligations.FaultCodeNumbers :=
  ⟨rfl, FaultCode.code_le_nine, fun _ _ h => FaultCode.code_injective h⟩

end Sys2Proof.Machine
end

section
/-! SUPPORT. Proofs of the statements about reset and startup (70_reset_and_hazards.md): the zero window, the equation
of each step of startup, boot selection, and the two orders of the startup events. -/

namespace Sys2Proof.Machine

/-! ## Reset and the zero window (70_reset_and_hazards.md R201, R202) -/

theorem readByte_resetWith (cfg : Config) (a : Nat) : (State.resetWith cfg).readByte a = 0x00 :=
  Memory.read_nil a

/-- Every cell of a window of zero bytes is the zero cell. -/
theorem fetchCell_of_zero_window {s : State} (h : ∀ k, k < 4000 → s.readByte (s.cfg.videoBase.val + k) = 0x00)
    {i : Nat} (hi : i < 2000) : s.fetchCell i = ⟨0x00, 0x00⟩ :=
  congrArg₂ Cell.mk (h (2 * i) (by omega)) (h (2 * i + 1) (by omega))

/-- Both colours of the zero cell are PAL[0], so its glyph does not matter. -/
theorem pixelOf_zero_window {s : State} (h : ∀ k, k < 4000 → s.readByte (s.cfg.videoBase.val + k) = 0x00)
    (g : GlyphTable) (x : Fin 640) (y : Fin 400) : pixelOf s.cfg s.windowCells g x y = paletteEntry s.cfg 0 := by
  have hi : cellIndex (x / 8) (y / 16) < 2000 := by unfold cellIndex; omega
  rw [pixelOf_windowCells, fetchCell_of_zero_window h hi]
  exact ite_self _

/-! ## The steps of startup (70_reset_and_hazards.md R203) -/

/-- The machine is in startup, and its next step is the next startup event. -/
structure State.AwaitsEvent (s : State) : Prop where
  noCommand : s.port = []
  inStartup : s.phase = .startup
  noFault : s.fault = .none
  incomplete : s.fontOk = false ∨ s.bootDone = false

/-- The state after a startup font that loads. -/
def State.fontLoaded (s : State) (l : List Byte) (g : GlyphTable) : State := (s.setStream l).setGlyphs g

/-- The state after boot selection of the device d. -/
def State.booted (s : State) (loc : Nat) (d : List Byte) : State :=
  { s with mem := s.mem.writeBytes loc (d.take 512), bootDone := true }

theorem step_of_startup {s : State} (hp : s.port = []) (hq : s.phase = .startup) : step s = startupStep s := by
  simp [step, sequencerStep, hp, hq]

theorem step_of_startup_fault {s : State} (hp : s.port = []) (hq : s.phase = .startup) (hs : s.fault ≠ .none) :
    step s = .next (s.setPhase (.ended .startupFault)) :=
  (step_of_startup hp hq).trans (startupStep_of_fault hs)

theorem step_of_startup_complete {s : State} (hp : s.port = []) (hq : s.phase = .startup) (hs : s.fault = .none)
    (hf : s.fontOk = true) (hb : s.bootDone = true) : step s = .next (s.setPhase .poll) := by
  rw [step_of_startup hp hq]
  simp [startupStep, State.faulted, hs, hf, hb]

theorem State.AwaitsEvent.not_complete {s : State} (h : s.AwaitsEvent) : ¬(s.fontOk && s.bootDone) = true := by
  rcases h.incomplete with hf | hb
  · simp [hf]
  · simp [hb]

theorem State.AwaitsEvent.step_font {s : State} (h : s.AwaitsEvent) {l : List Byte} {rest : List StartupEvent}
    (he : s.startup = .font l :: rest) : step s = loadFont ({ s with startup := rest }.setStream l) := by
  have hword : step s = runCommand (encode .fontload) ({ s with startup := rest }.setStream l) := by
    rw [step_of_startup h.noCommand h.inStartup]
    simp [startupStep, State.faulted, h.noFault, h.not_complete, he]
  rw [hword, runCommand_of_decode (decode_encode .fontload)]
  exact exec_fontload h.noFault

theorem State.AwaitsEvent.step_boot {s : State} (h : s.AwaitsEvent) {ds : List (List Byte)} {loc : Nat}
    {rest : List StartupEvent} (he : s.startup = .boot ds loc :: rest) :
    step s = bootSelection ds loc { s with startup := rest } := by
  rw [step_of_startup h.noCommand h.inStartup]
  simp [startupStep, State.faulted, h.noFault, h.not_complete, he]

/-- Startup goes on into a frame only when it is complete (70_reset_and_hazards.md R205). -/
theorem startupStep_enters_frame {s t : State} (h : startupStep s = .next t) (hs : s.phase.inFrame = false)
    (ht : t.phase.inFrame = true) : s.fault = .none ∧ s.fontOk = true ∧ s.bootDone = true := by
  have hne : t.phase ≠ s.phase := fun e => by rw [e, hs] at ht; cases ht
  rcases startupStep_cases h with
    ⟨_, rfl⟩ | ⟨hn, hf, hb, _⟩ | ⟨_, _, rfl⟩ | ⟨l, rest, _, _, hc⟩ | ⟨ds, l, rest, _, _, hb⟩
  · cases ht
  · exact ⟨hn, hf, hb⟩
  · exact absurd rfl hne
  · exact absurd hc.phase_eq hne
  · rcases bootSelection_cases hb with rfl | ⟨d, _, _, _, rfl⟩
    · cases ht
    · exact absurd rfl hne

/-! ## Boot selection (70_reset_and_hazards.md R203 (b)) -/

theorem qualifiesForBoot_iff (d : List Byte) :
    qualifiesForBoot d = true ↔ d[510]? = some 0x55#8 ∧ d[511]? = some 0xAA#8 := by
  simp [qualifiesForBoot]

theorem bootSelection_of_find {ds : List (List Byte)} {d : List Byte} {loc : Nat}
    (hd : ds.find? qualifiesForBoot = some d) (hl : loc + 512 ≤ memSize) (s : State) :
    bootSelection ds loc s = .next (s.booted loc d) := by
  simp only [bootSelection, hd, if_pos hl]
  rfl

theorem bootSelection_of_none {ds : List (List Byte)} (h : ∀ d ∈ ds, qualifiesForBoot d = false) (loc : Nat)
    (s : State) : bootSelection ds loc s = .next (s.setPhase (.ended .noBootDevice)) := by
  have hd : ds.find? qualifiesForBoot = none := List.find?_eq_none.2 fun d hm => by simp [h d hm]
  simp only [bootSelection, hd]

theorem length_of_qualifies {d : List Byte} (h : qualifiesForBoot d = true) : 512 ≤ d.length := by
  obtain ⟨_, h511⟩ := (qualifiesForBoot_iff d).1 h
  obtain ⟨hlt, _⟩ := List.getElem?_eq_some_iff.1 h511
  exact hlt

/-- The boot copy puts the device's first 512 bytes at the boot location. -/
theorem State.readByte_booted_inside (s : State) (loc : Nat) {d : List Byte} (hd : qualifiesForBoot d = true) {k : Nat}
    (hk : k < 512) : d[k]? = some ((s.booted loc d).readByte (loc + k)) := by
  have hlen := length_of_qualifies hd
  have hread := Memory.read_writeBytes_inside (d.take 512) s.mem loc k (by rw [List.length_take]; omega)
  rw [List.getElem_take] at hread
  rw [List.getElem?_eq_getElem (by omega), ← hread]
  rfl

theorem State.readByte_booted_outside (s : State) (loc : Nat) (d : List Byte) {a : Nat}
    (ha : a < loc ∨ loc + 512 ≤ a) : (s.booted loc d).readByte a = s.readByte a := by
  have hlen : (d.take 512).length ≤ 512 := List.length_take_le 512 d
  exact Memory.read_writeBytes_outside (d.take 512) s.mem loc a (by omega)

/-! ## Startup that fails (70_reset_and_hazards.md R205) -/

/-- No frame will come: the run is over, or a fault is recorded in startup and the next step ends it. -/
inductive StartupFailed (s : State) : Prop where
  | ended (why : EndReason) (hp : s.port = []) (hq : s.phase = .ended why)
  | faulted (hp : s.port = []) (hq : s.phase = .startup) (hs : s.fault ≠ .none)

theorem StartupFailed.ne_poll {s : State} (h : StartupFailed s) : s.phase ≠ .poll := by
  cases h with
  | ended why _ hq => rw [hq]; nofun
  | faulted _ hq => rw [hq]; nofun

theorem StartupFailed.step {s t : State} (h : StartupFailed s) (hst : step s = .next t) : StartupFailed t := by
  cases h with
  | ended why hp hq => rw [step_of_ended hp hq] at hst; cases hst
  | faulted hp hq hs => rw [step_of_startup_fault hp hq hs] at hst; cases hst; exact .ended _ hp rfl

/-- A run of n + 1 steps that answers a next state is one step and a run of n. -/
theorem exists_step_of_run {n : Nat} {s t : State} (h : Host.Core.run core (n + 1) s = .next t) :
    ∃ u, step s = .next u ∧ Host.Core.run core n u = .next t := by
  cases hs : step s with
  | next u => exact ⟨u, rfl, (run_succ_of_next n hs).symm.trans h⟩
  | fault f => exact absurd ((run_succ_of_fault n hs).symm.trans h) nofun
  | refused r => exact absurd ((run_succ_of_refused n hs).symm.trans h) nofun

theorem StartupFailed.run {n : Nat} {s t : State} (h : StartupFailed s) (hr : Host.Core.run core n s = .next t) :
    StartupFailed t := by
  induction n generalizing s with
  | zero => cases hr; exact h
  | succ n ih =>
    obtain ⟨u, hu, hr⟩ := exists_step_of_run hr
    exact ih (h.step hu) hr

/-! ## The font and the boot event in either order (70_reset_and_hazards.md R204) -/

/-- The font event loads a table, or raises a fault and leaves the sequencer in startup. -/
theorem State.AwaitsEvent.font_cases {s t : State} (h : s.AwaitsEvent) {l : List Byte} {rest : List StartupEvent}
    (he : s.startup = .font l :: rest) (hst : step s = .next t) :
    (t.port = [] ∧ t.phase = .startup ∧ t.fault ≠ .none) ∨
      ∃ g, fontVerdict s.cfg s.fontOk l = .load g ∧ t = { s with startup := rest }.fontLoaded l g := by
  rw [h.step_font he] at hst
  rcases loadFont_cases hst with ⟨k, hk, rfl⟩ | ⟨_, rfl⟩ | ⟨g, _, hg, rfl⟩
  · exact .inl ⟨h.noCommand, h.inStartup, fontVerdict_raise_ne_none hk⟩
  · exact .inl ⟨h.noCommand, h.inStartup, unsupportedFontFault_ne_none _⟩
  · exact .inr ⟨g, hg, rfl⟩

/-- The boot event that answers a next state ends the run, or copies the first qualifying device's sector. -/
theorem State.AwaitsEvent.boot_cases {s t : State} (h : s.AwaitsEvent) {ds : List (List Byte)} {loc : Nat}
    {rest : List StartupEvent} (he : s.startup = .boot ds loc :: rest) (hst : step s = .next t) :
    StartupFailed t ∨ ∃ d, ds.find? qualifiesForBoot = some d ∧ loc + 512 ≤ memSize ∧
      t = { s with startup := rest }.booted loc d := by
  rw [h.step_boot he, bootSelection] at hst
  split at hst
  · cases hst; exact .inl (.ended _ h.noCommand rfl)
  · rename_i d hd
    split at hst
    · rename_i hl
      cases hst; exact .inr ⟨d, hd, hl, rfl⟩
    · cases hst

/-- The font on l loads the table g, and boot selection finds the device d and copies it inside memory. -/
structure BothSucceed (cfg : Config) (l : List Byte) (ds : List (List Byte)) (loc : Nat) (g : GlyphTable)
    (d : List Byte) : Prop where
  font : fontVerdict cfg false l = .load g
  device : ds.find? qualifiesForBoot = some d
  inMemory : loc + 512 ≤ memSize

section
variable {s : State} (h : s.AwaitsEvent) (hf : s.fontOk = false) (hb : s.bootDone = false) {l : List Byte}
  {ds : List (List Byte)} {loc : Nat}
include h

theorem State.AwaitsEvent.withStartup (es : List StartupEvent) : State.AwaitsEvent { s with startup := es } :=
  { h with }

include hb in
theorem State.AwaitsEvent.fontLoaded (g : GlyphTable) : (s.fontLoaded l g).AwaitsEvent :=
  { h with incomplete := .inr hb }

include hf in
theorem State.AwaitsEvent.booted (d : List Byte) : (s.booted loc d).AwaitsEvent :=
  { h with incomplete := .inl hf }

/-- A font event without a table to load ends the run with the font's fault. -/
theorem run_font_fails {rest : List StartupEvent} (he : s.startup = .font l :: rest)
    (hno : ∀ g, fontVerdict s.cfg s.fontOk l ≠ .load g) :
    ∃ t, Host.Core.run core 2 s = .next t ∧ t.phase = .ended .startupFault := by
  obtain ⟨u, hu⟩ := loadFont_next ({ s with startup := rest }.setStream l)
  have hu : step s = .next u := (h.step_font he).trans hu
  rcases h.font_cases he hu with ⟨hp, hq, hs⟩ | ⟨g, hg, _⟩
  · exact ⟨_, run_two_of_next hu (step_of_startup_fault hp hq hs), rfl⟩
  · exact absurd hg (hno g)

include hf

include hb in
/-- The font first: the table, the sector, then frame 1. -/
theorem run_font_boot {g : GlyphTable} {d : List Byte} (hok : BothSucceed s.cfg l ds loc g d) :
    Host.Core.run core 3 { s with startup := [.font l, .boot ds loc] } =
      .next ((({ s with startup := [] }.fontLoaded l g).booted loc d).setPhase .poll) := by
  have hfont : step { s with startup := [.font l, .boot ds loc] } =
      .next ({ s with startup := [.boot ds loc] }.fontLoaded l g) :=
    ((h.withStartup [.font l, .boot ds loc]).step_font rfl).trans (loadFont_of_load (hf ▸ hok.font))
  have hboot : step ({ s with startup := [.boot ds loc] }.fontLoaded l g) =
      .next (({ s with startup := [] }.fontLoaded l g).booted loc d) :=
    (((h.withStartup [.boot ds loc]).fontLoaded hb g).step_boot rfl).trans
      (bootSelection_of_find hok.device hok.inMemory _)
  exact (run_succ_of_next 2 hfont).trans
    (run_two_of_next hboot (step_of_startup_complete h.noCommand h.inStartup h.noFault rfl rfl))

/-- Boot selection first: the same state. -/
theorem run_boot_font {g : GlyphTable} {d : List Byte} (hok : BothSucceed s.cfg l ds loc g d) :
    Host.Core.run core 3 { s with startup := [.boot ds loc, .font l] } =
      .next ((({ s with startup := [] }.fontLoaded l g).booted loc d).setPhase .poll) := by
  have hboot : step { s with startup := [.boot ds loc, .font l] } =
      .next ({ s with startup := [.font l] }.booted loc d) :=
    ((h.withStartup [.boot ds loc, .font l]).step_boot rfl).trans (bootSelection_of_find hok.device hok.inMemory _)
  have hfont : step ({ s with startup := [.font l] }.booted loc d) =
      .next (({ s with startup := [] }.fontLoaded l g).booted loc d) :=
    (((h.withStartup [.font l]).booted hf d).step_font rfl).trans (loadFont_of_load (hf ▸ hok.font))
  exact (run_succ_of_next 2 hboot).trans
    (run_two_of_next hfont (step_of_startup_complete h.noCommand h.inStartup h.noFault rfl rfl))

include hb in
/-- The font first: frame 1 comes only when neither event fails. -/
theorem bothSucceed_of_run_font_boot {t : State}
    (hr : Host.Core.run core 3 { s with startup := [.font l, .boot ds loc] } = .next t) (ht : t.phase = .poll) :
    ∃ g d, BothSucceed s.cfg l ds loc g d := by
  obtain ⟨u, hu, hr⟩ := exists_step_of_run hr
  rcases (h.withStartup [.font l, .boot ds loc]).font_cases rfl hu with ⟨hp, hq, hs⟩ | ⟨g, hg, rfl⟩
  · exact absurd ht (StartupFailed.run (.faulted hp hq hs) hr).ne_poll
  · obtain ⟨v, hv, hr⟩ := exists_step_of_run hr
    rcases ((h.withStartup [.boot ds loc]).fontLoaded hb g).boot_cases rfl hv with hfail | ⟨d, hd, hl, _⟩
    · exact absurd ht (hfail.run hr).ne_poll
    · exact ⟨g, d, hf ▸ hg, hd, hl⟩

/-- Boot selection first: frame 1 comes only when neither event fails. -/
theorem bothSucceed_of_run_boot_font {t : State}
    (hr : Host.Core.run core 3 { s with startup := [.boot ds loc, .font l] } = .next t) (ht : t.phase = .poll) :
    ∃ g d, BothSucceed s.cfg l ds loc g d := by
  obtain ⟨u, hu, hr⟩ := exists_step_of_run hr
  rcases (h.withStartup [.boot ds loc, .font l]).boot_cases rfl hu with hfail | ⟨d, hd, hl, rfl⟩
  · exact absurd ht (hfail.run hr).ne_poll
  · obtain ⟨v, hv, hr⟩ := exists_step_of_run hr
    rcases ((h.withStartup [.font l]).booted hf d).font_cases rfl hv with ⟨hp, hq, hs⟩ | ⟨g, hg, _⟩
    · exact absurd ht (StartupFailed.run (.faulted hp hq hs) hr).ne_poll
    · exact ⟨g, d, hf ▸ hg, hd, hl⟩

end

/-! ## The statements of 70_reset_and_hazards.md -/

/-- Settles O34: every pixel picks between the two colours of the zero cell, which are both PAL[0]. -/
theorem zeroWindowComposesToPalZero : Obligations.ZeroWindowComposesToPalZero := by
  refine ⟨readByte_resetWith, fun s g hs hf hg hzero => ?_, by decide, by decide⟩
  refine ⟨_, exec_compose_of_font hs hf hg, fun x y => ?_⟩
  rw [State.setFrame_fb, getElem_rasterize _ _ _ _ _ x.isLt y.isLt]
  exact pixelOf_zero_window hzero g x y

/-- Settles O49: of everything a step can do outside a frame only a step of complete startup enters one, and once the
run is over only commands at the port go on. -/
theorem framesStartOnlyAfterStartup : Obligations.FramesStartOnlyAfterStartup := by
  refine ⟨fun s t h hs ht => ?enters, fun s hp hq hs => step_of_startup_fault hp hq hs, fun s t why hq h => ?stays⟩
  case enters =>
    cases step_cases h with
    | command _ _ _ _ hc => rw [hc.phase_eq] at ht; exact absurd (ht.symm.trans hs) nofun
    | startup _ _ hq hstep => exact ⟨hq, startupStep_enters_frame hstep hs ht⟩
    | shutdown _ hq | polled _ _ hq | executed _ _ _ _ hq | composed _ _ hq | presented _ hq =>
      rw [hq] at hs; cases hs
  case stays =>
    cases step_cases h with
    | command _ _ _ _ hc => exact hc.phase_eq.trans hq
    | startup _ _ hq' | shutdown _ hq' | polled _ _ hq' | executed _ _ _ _ hq' | composed _ _ hq' | presented _ hq' =>
      exact absurd (hq.symm.trans hq') nofun

/-- Settles O50: the device that boot selection finds is the first that qualifies, and the copy is 512 bytes long. -/
theorem bootSelectionCopiesTheSector : Obligations.BootSelectionCopiesTheSector := by
  intro s ds loc rest hp hq hs hb he
  have h : s.AwaitsEvent := ⟨hp, hq, hs, .inr hb⟩
  rw [h.step_boot he]
  refine ⟨fun before after d hds hbefore h510 h511 hl => ?_, fun hnone => ?_⟩
  · have hd : qualifiesForBoot d = true := (qualifiesForBoot_iff d).2 ⟨h510, h511⟩
    have hfind : ds.find? qualifiesForBoot = some d := by
      refine List.find?_eq_some_iff_append.2 ⟨hd, before, after, hds, fun e hm => ?_⟩
      simpa [← qualifiesForBoot_iff] using hbefore e hm
    exact ⟨_, bootSelection_of_find hfind hl _, fun k hk => State.readByte_booted_inside _ loc hd hk,
      fun a ha => State.readByte_booted_outside _ loc d ha, rfl⟩
  · refine bootSelection_of_none (fun e hm => ?_) loc _
    simpa [← qualifiesForBoot_iff] using hnone e hm

/-- Settles O51: either order reaches frame 1 only when both events succeed, and then both reach the same state. -/
theorem startupOrderIsFree : Obligations.StartupOrderIsFree := by
  intro s l ds loc hp hq hs hf hb
  have h : s.AwaitsEvent := ⟨hp, hq, hs, .inl hf⟩
  refine ⟨fun t hr ht => ?_, fun t hr ht => ?_, fun hfont hboot => ⟨?_, ?_⟩⟩
  · obtain ⟨g, d, hok⟩ := bothSucceed_of_run_font_boot h hf hb hr ht
    exact (run_boot_font h hf hok).trans ((run_font_boot h hf hb hok).symm.trans hr)
  · obtain ⟨g, d, hok⟩ := bothSucceed_of_run_boot_font h hf hr ht
    exact (run_font_boot h hf hb hok).trans ((run_boot_font h hf hok).symm.trans hr)
  · exact run_font_fails (h.withStartup _) rfl (hf ▸ hfont)
  · have hend : step { s with startup := [.boot ds loc, .font l] } =
        .next ({ s with startup := [.font l] }.setPhase (.ended .noBootDevice)) :=
      ((h.withStartup [.boot ds loc, .font l]).step_boot rfl).trans (bootSelection_of_none hboot loc _)
    exact ⟨_, (run_succ_of_next 0 hend).trans (run_zero _), rfl⟩

/-- Settles O37: STATUS by evaluation, a pixel as a place of the replicated frame, memory as the empty list. -/
theorem resetValues : Obligations.ResetValues := by
  refine ⟨by decide, rfl, rfl, rfl, rfl, rfl, rfl, rfl, rfl, fun x y => ?_, readByte_resetWith defaultConfig, rfl⟩
  exact (congrArg (·[x.val]) (Vector.getElem_replicate _)).trans (Vector.getElem_replicate _)

end Sys2Proof.Machine
end
